-- ==== Sys2Proof/Word.lean ====
section
/-! DEFINITION. The words the block moves: wire bytes, raw counts, host operands and FMT values. -/

namespace Sys2Proof

/-- An 8-bit unit: a host word, a command byte, one received byte (30_encoding.md R70, R78, R81). -/
abbrev Byte := BitVec 8

/-- A raw count, the `u16` of 00_scope.md R7. -/
abbrev Count := BitVec 16

/-- A value of format FMT, or a binary64 period, by its IEEE 754 interchange pattern.
A binary32 value stands in bits 31 to 0, with bits 63 to 32 zero (DESIGN CHOICE, log 8). -/
abbrev FVal := BitVec 64

end Sys2Proof
end

