-- ==== Sys2Proof/Config.lean ====
section
/-! DEFINITION. The parameters of 00_scope.md R6, and the free values (constants without a body). -/

namespace Sys2Proof

/-- The parameter `FMT` of 00_scope.md R6: the floating-point format of the conversion and of `reading`. -/
inductive Fmt where
  | binary64
  | binary32
deriving DecidableEq, Repr

/-- The parameter `SQ_ORDER` of 00_scope.md R6: how the square term is grouped (42_conversion.md R164). -/
inductive SqOrder where
  | productFirst
  | coefFirst
deriving DecidableEq, Repr

/-- The three rounded operations of 00_scope.md R10. -/
inductive FloatOp where
  | add
  | sub
  | mul
deriving DecidableEq, Repr

/-- The parameters of 00_scope.md R6, each a configuration argument; no step writes them (log 7).
Those the source fixes carry the proof that they have the source's value, since the rules are written for it
(log 21). `T_EDGE` and `period0` stand below. -/
structure Config where
  fmt : Fmt
  sqOrder : SqOrder
  armAtConstruction : Bool
  /-- `POLL_US`, a label in microseconds. -/
  pollUs : Nat
  /-- `FAST_US`, a label in microseconds. -/
  fastUs : Nat
  /-- `MIN_PERIOD`, a binary64 pattern. -/
  minPeriod : FVal
  /-- `CMD_TEMP`. -/
  cmdTemp : Byte
  /-- `CMD_HUM`. -/
  cmdHum : Byte
  /-- `RESET_PULSES`. -/
  resetPulses : Nat
  /-- `RAW_BITS`, the width of the accumulator of a raw count. -/
  rawBits : Nat
  /-- `CMD_BITS`, how many bits of a command are sent. -/
  cmdBits : Nat
  /-- The values R6 marks `(fixed)` by the source; 2.0 is the pattern of 95_test_vectors.md section 1. -/
  fixedBySource : minPeriod = 0x4000000000000000#64 ∧ cmdTemp = 0x03#8 ∧ cmdHum = 0x05#8 ∧ resetPulses = 9 ∧
    rawBits = 16 ∧ cmdBits = 8
deriving DecidableEq, Repr

/-- The value 00_scope.md R6 gives each parameter. -/
def Config.spec : Config :=
  { fmt := .binary64, sqOrder := .productFirst, armAtConstruction := true, pollUs := 10000, fastUs := 1
    minPeriod := 0x4000000000000000#64, cmdTemp := 0x03#8, cmdHum := 0x05#8, resetPulses := 9
    rawBits := 16, cmdBits := 8, fixedBySource := ⟨rfl, rfl, rfl, rfl, rfl, rfl⟩ }

/-- The `period0` that `State.reset` was constructed with: 2.0.
DESIGN CHOICE, unsafe (log 2): the spec gives RESET's operand no default (91_not_in_source.md N9). -/
def Config.period0 : FVal := 0x4000000000000000#64

/-- The sensor's draws when no SENSOR line fixes them: the n-th is a free value (40_bus.md R101; log 1, safe). -/
opaque Config.freeDraw : Nat → Bool

/-- The sign and payload of the NaN an operation without a numeric result gives: a free value
(42_conversion.md R169 says the pipeline never meets one; log 9, safe). -/
opaque Config.nanBits : Fmt → FloatOp → FVal → FVal → FVal

/-- `T_EDGE`, OPEN (00_scope.md R6, 92_eei_decisions.md D37): no rule depends on it and nothing reads it (log 18). -/
opaque Config.tEdge : Nat

end Sys2Proof
end

