-- ==== Sys2Proof/Syntax.lean ====
section
/-! DEFINITION. The instructions (one constructor per row of the opcode table) and the raw words of the four encoding spaces. -/

namespace Sys2Proof

/-- The operations of the block: host operations, ticks, micro-operations and wire commands (00_scope.md R2). -/
inductive Instr where
  -- host operations, 30_encoding.md R71
  | reset (period0 : FVal)
  | init
  | disable
  | setCyclePeriod (x : FVal)
  | lastTemperature
  | lastHumidity
  | lastBoth
  -- ticks, 30_encoding.md R75
  | tickS0
  | tickS1
  | tickS2
  | tickS3
  | tickS4
  | tickS5
  -- micro-operations, 30_encoding.md R77
  | pulse
  | start
  | softReset
  | sendCommand (c : Byte)
  | receiveByte
  | ackByte
  | terminate
  | sampleReady
  | receiveWord
  /-- `r` is CONV_TEMP's operand (42_conversion.md R162); it stands beside the word (log 25). -/
  | convTemp (r : Count)
  /-- `t` and `h` are CONV_HUM's operands (42_conversion.md R163); they stand beside the word (log 25). -/
  | convHum (t : FVal) (h : Count)
  -- wire commands, 30_encoding.md R79
  | measureT
  | measureRh
deriving DecidableEq, Repr

/-- The four encoding spaces of 30_encoding.md: the `format` column of the opcode table. -/
inductive Space where
  | host8
  | tick
  | micro12
  | wireCmd
deriving DecidableEq, Repr

/-- A raw word of one encoding space, with the operands that stand beside it.
A space that has operands carries them for every word; a word that uses none ignores them (log 26). -/
inductive Request where
  /-- `op[7:0]` and the binary64 operand (30_encoding.md R70, R73). -/
  | host (op : Byte) (x : FVal)
  /-- `pstate[2:0]`, the dispatch key of a tick (30_encoding.md R74, R75). -/
  | tick (code : BitVec 3)
  /-- `u[11:0]` (30_encoding.md R76), with the operands of CONV_TEMP and CONV_HUM. -/
  | micro (u : BitVec 12) (t : FVal) (n : Count)
  /-- A wire command byte (30_encoding.md R79). -/
  | wire (c : Byte)
deriving DecidableEq, Repr

/-- Why a raw word is no instruction. -/
inductive Reject where
  /-- 30_encoding.md R72. -/
  | reservedHostWord (op : Byte)
  /-- 30_encoding.md R74: codes 6 and 7. -/
  | invalidStateCode (code : BitVec 3)
  /-- 30_encoding.md R77: codes B to F, or `imm8` not 0 where it must be. -/
  | reservedMicroOp (u : BitVec 12)
  /-- 30_encoding.md R80: a byte the block never sends as a measurement command. -/
  | unknownWireCommand (c : Byte)
deriving DecidableEq, Repr

/-- The encoding space a raw word stands in. -/
def Request.space : Request → Space
  | .host _ _ => .host8
  | .tick _ => .tick
  | .micro _ _ _ => .micro12
  | .wire _ => .wireCmd

/-- The raw word alone, without operands, as a number. -/
def Request.word : Request → Nat
  | .host op _ => op.toNat
  | .tick code => code.toNat
  | .micro u _ _ => u.toNat
  | .wire c => c.toNat

/-- The `format` the opcode table gives each instruction. -/
def Instr.format : Instr → Space
  | .reset _ | .init | .disable | .setCyclePeriod _ | .lastTemperature | .lastHumidity | .lastBoth => .host8
  | .tickS0 | .tickS1 | .tickS2 | .tickS3 | .tickS4 | .tickS5 => .tick
  | .pulse | .start | .softReset | .sendCommand _ | .receiveByte | .ackByte | .terminate | .sampleReady
  | .receiveWord | .convTemp _ | .convHum _ _ => .micro12
  | .measureT | .measureRh => .wireCmd

/-- The mnemonic of the opcode table, the assembler's spelling (30_encoding.md R85). -/
def Instr.mnemonic : Instr → String
  | .reset _ => "RESET"
  | .init => "INIT"
  | .disable => "DISABLE"
  | .setCyclePeriod _ => "SET_CYCLE_PERIOD"
  | .lastTemperature => "LAST_TEMPERATURE"
  | .lastHumidity => "LAST_HUMIDITY"
  | .lastBoth => "LAST_BOTH"
  | .tickS0 => "TICK.S0"
  | .tickS1 => "TICK.S1"
  | .tickS2 => "TICK.S2"
  | .tickS3 => "TICK.S3"
  | .tickS4 => "TICK.S4"
  | .tickS5 => "TICK.S5"
  | .pulse => "PULSE"
  | .start => "START"
  | .softReset => "SOFT_RESET"
  | .sendCommand _ => "SEND_COMMAND"
  | .receiveByte => "RECEIVE_BYTE"
  | .ackByte => "ACK_BYTE"
  | .terminate => "TERMINATE"
  | .sampleReady => "SAMPLE_READY"
  | .receiveWord => "RECEIVE_WORD"
  | .convTemp _ => "CONV_TEMP"
  | .convHum _ _ => "CONV_HUM"
  | .measureT => "MEASURE_T"
  | .measureRh => "MEASURE_RH"

end Sys2Proof
end

