-- ==== Sys2Proof/Machine/State.lean ====
section
/-! DEFINITION. The block's state (10_state.md R20), what its steps are observed by, and the state after RESET. -/

namespace Sys2Proof.Machine

/-- The model faults, the closed list of the spec's table of faults (60_exceptions.md R201): `raise Fault(k)` records `k`
and stops the step (00_scope.md R11, R12). Each is safe, as the spec says (93_implementation_defined.md U4, U5, U8 to U11). -/
inductive Fault where
  /-- RESET and SET_CYCLE_PERIOD, for an operand that is NaN or plus infinity (43_shell.md R184). Safe. -/
  | badPeriod
  /-- The three accessors while `reading` holds `⊥`, before the first publication (43_shell.md R185 to R187). Safe. -/
  | readingUnwritten
  /-- TICK.S5 while `raw_temp` holds `⊥` (41_sequencer.md R137). Safe, and no run reaches it. -/
  | rawTempUnwritten
  /-- A tick at state code 6 or 7 (41_sequencer.md R138). Safe, and no run reaches it. -/
  | badState
  /-- A reserved micro-operation word (30_encoding.md R77). Safe, and no rule issues one. -/
  | badMicroOp
  /-- SAMPLE_READY while DATA is not an input (40_bus.md R110). Safe, and no run of ticks reaches it. -/
  | badLineMode
deriving DecidableEq, Repr

/-- Why a step gives no next state although the block raises no fault. All are safe: the model stops. -/
inductive Refusal where
  /-- An instruction without a meaning yet, by its mnemonic. Raised by the dispatch only. Safe. -/
  | notModelled (mnemonic : String)
  /-- A reserved host word (30_encoding.md R72). Raised by the fetch; it sets the mark `refused`. Safe. -/
  | reservedHostWord (op : Byte)
  /-- Any operation but RESET before construction (70_reset_and_hazards.md R230). Raised by the fetch; it sets
  the mark `refused`. For a word on the model's own ports both are the model's choice (log 16). Safe. -/
  | notConstructed
  /-- A wire byte that is no measurement command, on the model's own port (30_encoding.md R80; log 17).
  Raised by the fetch. Safe. -/
  | unknownWireCommand (c : Byte)
  /-- A micro or wire word while the model's own ports are closed: no agent outside the block issues a micro-operation
  (30_encoding.md R76; log 5). Raised by the fetch. Safe. -/
  | portClosed
  /-- An operand that is no value of its type (log 15). Raised by the fetch. Safe. -/
  | illFormed
  /-- Stuck: a FIRE with no schedule pending (70_reset_and_hazards.md R243, 41_sequencer.md R130).
  Raised by the fetch. Safe. -/
  | noSchedule
  /-- Stuck: a draw from an empty SENSOR queue in a script (70_reset_and_hazards.md R243). Raised by a sample. Safe. -/
  | noDraw
  /-- No agent has a step once a mark is set (10_state.md R29, 60_exceptions.md R201). Raised by the fetch. Safe. -/
  | halted
  /-- The end of a script (70_reset_and_hazards.md R243). Raised by the fetch. Safe. -/
  | scriptEnded
  /-- A block with no schedule and nothing to come (60_exceptions.md R213(b)): quiescent, no fault.
  Raised by the fetch. Safe. -/
  | quiescent
deriving DecidableEq, Repr

/-- DATA's mode (10_state.md R20, `In` and `Out`). -/
inductive Dir where
  | input
  | output
deriving DecidableEq, Repr

/-- The one outstanding timer request (10_state.md R20, `sched`). -/
inductive Sched where
  | none
  | once (us : Nat)
  | recurring (s : FVal)
deriving DecidableEq, Repr

/-- The line operations of 00_scope.md R8; high is `true`. -/
inductive LineOp where
  | ddir (d : Dir)
  | dout (b : Bool)
  | clk (b : Bool)
  | din
  | wait
deriving DecidableEq, Repr

/-- The bus-event alphabet of 30_encoding.md R82; a sample carries the value read. -/
inductive BusEvent where
  | ddir (d : Dir)
  | dout (b : Bool)
  | clk (b : Bool)
  | sample (v : Bool)
  | wait
deriving DecidableEq, Repr

/-- An entry of the timer-request log (41_sequencer.md R139). -/
inductive TimerRequest where
  | schedOnce (us : Nat)
  | schedRec (s : FVal)
  | cancel
deriving DecidableEq, Repr

/-- A returned value: an accessor's (30_encoding.md R71) or a micro-operation's (R77). -/
inductive Value where
  | byte (b : Byte)
  | word (w : Count)
  | flag (b : Bool)
  | num (v : FVal)
  | pair (t h : FVal)
deriving DecidableEq, Repr

/-- What the other agents do next: the lines of a script (30_encoding.md R85, 70_reset_and_hazards.md R243).
`micro` and `wire` are words on the model's own ports, taken only while these are open (log 5). -/
inductive Stimulus where
  /-- The host issues an operation word with its operand. -/
  | host (op : Byte) (x : FVal)
  /-- The timer fires the pending schedule. -/
  | fire
  /-- A SENSOR line: the values of the next samples, in order. -/
  | sensor (vs : List Bool)
  /-- A micro-operation word run by itself, with the operands beside it. -/
  | micro (u : BitVec 12) (t : FVal) (n : Count)
  /-- A wire command run by itself. -/
  | wire (c : Byte)
deriving DecidableEq, Repr

/-- The machine: the record E of 10_state.md R20, the observations, and what the other agents hold. -/
structure State where
  /-- The sequencer position, the block's program counter (10_state.md R23). -/
  pstate : BitVec 3
  enabled : Bool
  sched : Sched
  period : FVal
  /-- The raw temperature; `none` is the value `⊥` of 00_scope.md R11 and 10_state.md R20, which R232 gives it at reset. -/
  rawTemp : Option Count
  /-- The published pair; `none` is the value `⊥` of 00_scope.md R11 and 10_state.md R20, which R232 gives it at reset. -/
  reading : Option (FVal × FVal)
  /-- The level driven on CLOCK. -/
  clk : Bool
  ddir : Dir
  /-- The DATA output latch. -/
  dout : Bool
  /-- Model only, sticky (10_state.md R29). -/
  fault : Option Fault
  /-- Model only, sticky (10_state.md R29). -/
  refused : Bool
  /-- The bus trace, oldest first (30_encoding.md R82). -/
  trace : List BusEvent
  /-- The timer-request log, oldest first (41_sequencer.md R139). -/
  timerLog : List TimerRequest
  /-- What the accessors have returned, oldest first (70_reset_and_hazards.md R243). -/
  returns : List Value
  /-- The last value a micro-operation run by itself returned (the model's own, log 14). -/
  microResult : Option Value
  /-- Whether a RESET has run (70_reset_and_hazards.md R230). -/
  constructed : Bool
  /-- What the host and the timer do next, in order (the model's own, log 3). -/
  agenda : List Stimulus
  /-- The values SENSOR lines have queued (70_reset_and_hazards.md R243). -/
  draws : List Bool
  /-- Which free draw comes next (the model's own, log 1). -/
  drawCount : Nat
  /-- Whether the run is a script of 70_reset_and_hazards.md R243, where a missing draw is stuck (log 4). -/
  script : Bool
  /-- Whether the model's own ports are open (log 5). In the block they are closed: no agent outside it issues a
  micro-operation (30_encoding.md R76). No step writes the field. -/
  ports : Bool
  /-- The machine's parameters, written by no step (log 7). -/
  cfg : Config
deriving DecidableEq, Repr

/-- The trace of one PULSE (40_bus.md R103), for the reset value of `trace`. -/
def pulseTrace : List BusEvent := [.clk true, .wait, .clk false, .wait]

/-- The events of SOFT_RESET with `pulses` pulses (40_bus.md R105), for the reset value of `trace`. -/
def softResetTrace (pulses : Nat) : List BusEvent :=
  [.ddir .output, .dout true, .clk false, .wait] ++ (List.replicate pulses pulseTrace).flatten

/-- The state after the first RESET (70_reset_and_hazards.md R232), constructed with `Config.period0`
(log 2) and the parameters `Config.spec` (log 7); nothing is on the agenda (log 3). -/
def State.reset : State :=
  { pstate := 0#3
    enabled := true
    sched := .recurring Config.period0
    period := Config.period0
    rawTemp := none
    reading := none
    clk := false
    ddir := .output
    dout := true
    fault := none
    refused := false
    trace := softResetTrace Config.spec.resetPulses
    timerLog := [.schedRec Config.period0]
    returns := []
    microResult := none
    constructed := true
    agenda := []
    draws := []
    drawCount := 0
    script := false
    ports := false
    cfg := Config.spec }

end Sys2Proof.Machine
end

