-- ==== Sys2Proof/Machine/Flags.lean ====
section
/-! DEFINITION. The block has no flags or condition codes (10_state.md R24); the two Booleans that steer it are here. -/

namespace Sys2Proof.Machine

/-- The measurement-ready value of one DATA sample: ready exactly when DATA is low (10_state.md R24, 40_bus.md R110). -/
def readyOf (v : Bool) : Bool := !v

/-- Setting `enabled` (10_state.md R24: INIT, and RESET and SET_CYCLE_PERIOD through REARM). -/
def State.enable (s : State) : State := { s with enabled := true }

/-- Clearing `enabled` (10_state.md R24: DISABLE, and the first statements of RESET). -/
def State.disarm (s : State) : State := { s with enabled := false }

end Sys2Proof.Machine
end

