-- ==== Sys2Proof/Machine/Operands.lean ====
section
/-! DEFINITION. Operand forms: bit order and byte order on the wire, and the period operand with its clamp. -/

namespace Sys2Proof.Machine

/-- `b2i` (00_scope.md R7), as a byte. -/
def b2i (b : Bool) : Byte := if b then 1#8 else 0#8

/-- The `n` bits of a command in the order they are sent, most significant first (20_memory.md R51):
bit 7 first, for `CMD_BITS` = 8. -/
def bitsMsbFirst (c : Byte) : Nat → List Bool
  | 0 => []
  | n + 1 => c.getLsbD n :: bitsMsbFirst c n

/-- The 8-bit accumulator after shifting in samples, first sample first: `acc <- (acc << 1) | b2i(v)`
(40_bus.md R107). -/
def shiftIn (acc : Byte) : List Bool → Byte
  | [] => acc
  | v :: vs => shiftIn ((acc <<< 1) ||| b2i v) vs

/-- The byte eight samples give (40_bus.md R107, 20_memory.md R51). -/
def byteOfSamples (vs : List Bool) : Byte := shiftIn 0#8 vs

/-- The raw count of two received bytes, the first received in bits 15 to 8 (20_memory.md R52). The accumulator
is `RAW_BITS` = 16 wide (10_state.md R26, 40_bus.md R111). -/
def countOfBytes (rawBits : Nat) (b0 b1 : Byte) : Count :=
  ((b0.setWidth rawBits <<< 8) ||| b1.setWidth rawBits).setWidth 16

/-- The pattern of binary64 plus infinity (95_test_vectors.md section 3.5). -/
def plusInfinity64 : FVal := 0x7FF0000000000000#64

/-- The sign bit of a binary64 pattern. -/
def sign64 (x : FVal) : Bool := decide (2 ^ 63 ≤ x.toNat)

/-- The pattern without its sign, whose order is the order of the magnitudes. -/
def magnitude64 (x : FVal) : Nat := x.toNat % 2 ^ 63

/-- `x` is a NaN. -/
def isNaN64 (x : FVal) : Bool := decide (0x7FF0000000000000 < magnitude64 x)

/-- `x < y` for binary64 values that are no NaN, exactly (43_shell.md R184). The two zeros are equal. -/
def lt64 (x y : FVal) : Bool :=
  match sign64 x, sign64 y with
  | false, false => decide (magnitude64 x < magnitude64 y)
  | true, true => decide (magnitude64 y < magnitude64 x)
  | true, false => decide (0 < magnitude64 x) || decide (0 < magnitude64 y)
  | false, true => false

/-- CLAMP (43_shell.md R184) to the parameter `MIN_PERIOD`; `none` is the fault BadPeriod. -/
def clamp (c : Config) (x : FVal) : Option FVal :=
  if isNaN64 x || x == plusInfinity64 then none
  else if lt64 x c.minPeriod then some c.minPeriod
  else some x

end Sys2Proof.Machine
end

