-- ==== Sys2Proof/Machine/Ops.lean ====
section
/-! DEFINITION. The named operations over the state: sequencing, the sensor's draws, the lines, the timer, entering a tick, and the marks. -/

namespace Sys2Proof.Machine

/-- `x ; f`: go on with what `x` gives, or stop as `x` stops (00_scope.md R11, R12). -/
def andThen {α β : Type} (x : Host.Outcome α Fault Refusal) (f : α → Host.Outcome β Fault Refusal) :
    Host.Outcome β Fault Refusal :=
  match x with
  | .next a => f a
  | .fault k => .fault k
  | .refused r => .refused r

/-! ### The sensor (40_bus.md R101) -/

/-- The value the sensor gives to the next sample: the next of the SENSOR queue, or a free value (log 1). -/
def State.nextDraw (s : State) : Bool :=
  match s.draws with
  | v :: _ => v
  | [] => Config.freeDraw s.drawCount

/-- The state once that value has been given: the queue is one shorter, or the next free draw comes next. -/
def State.pastDraw (s : State) : State :=
  { s with
    draws := s.draws.tail
    drawCount := if s.draws.isEmpty then s.drawCount + 1 else s.drawCount }

/-- `SensorDraw()` (40_bus.md R101). In a script an empty queue is stuck (70_reset_and_hazards.md R243). -/
def State.sensorDraw (s : State) : Host.Outcome (Bool × State) Fault Refusal :=
  if s.script && s.draws.isEmpty then .refused .noDraw else .next (s.nextDraw, s.pastDraw)

/-! ### The lines (40_bus.md R100) -/

/-- Append one event to the bus trace (30_encoding.md R82). -/
def State.emit (s : State) (e : BusEvent) : State := { s with trace := s.trace ++ [e] }

/-- `DIn()` (40_bus.md R100): one sample of DATA. -/
def State.dIn (s : State) : Host.Outcome (Bool × State) Fault Refusal :=
  andThen s.sensorDraw fun p => .next (p.1, p.2.emit (.sample p.1))

/-- One line operation (40_bus.md R100), with the samples it takes: one for `din`, none for the others. -/
def State.lineOp (s : State) : LineOp → Host.Outcome (List Bool × State) Fault Refusal
  | .ddir d => .next ([], { s.emit (.ddir d) with ddir := d })
  | .dout b => .next ([], { s.emit (.dout b) with dout := b })
  | .clk b => .next ([], { s.emit (.clk b) with clk := b })
  | .din => andThen s.dIn fun p => .next ([p.1], p.2)
  | .wait => .next ([], s.emit .wait)

/-- A straight-line program of line operations, in order (20_memory.md R57), with its samples in order. -/
def State.runLine (s : State) : List LineOp → Host.Outcome (List Bool × State) Fault Refusal
  | [] => .next ([], s)
  | op :: ops => andThen (s.lineOp op) fun p =>
      andThen (p.2.runLine ops) fun q => .next (p.1 ++ q.1, q.2)

/-- Run a program and discard its samples (40_bus.md R112). -/
def State.drive (s : State) (ops : List LineOp) : Host.Outcome State Fault Refusal :=
  andThen (s.runLine ops) fun p => .next p.2

/-- The level on DATA: the latch while the block drives it, unknown otherwise (40_bus.md R102). -/
def State.dataLevel (s : State) : Option Bool :=
  match s.ddir with
  | .output => some s.dout
  | .input => none

/-- The 3-bit code of an event (30_encoding.md R82). -/
def busEventCode : BusEvent → Nat
  | .ddir .output => 0
  | .ddir .input => 1
  | .dout false => 2
  | .dout true => 3
  | .clk false => 4
  | .clk true => 5
  | .sample _ => 6
  | .wait => 7

/-! ### The timer (41_sequencer.md R139) -/

/-- `SchedOnce(us)`. -/
def State.schedOnce (s : State) (us : Nat) : State :=
  { s with sched := .once us, timerLog := s.timerLog ++ [.schedOnce us] }

/-- `SchedRec(p)`. -/
def State.schedRec (s : State) (p : FVal) : State :=
  { s with sched := .recurring p, timerLog := s.timerLog ++ [.schedRec p] }

/-- `Cancel()`. -/
def State.cancel (s : State) : State :=
  { s with sched := .none, timerLog := s.timerLog ++ [.cancel] }

/-- A request is pending (60_exceptions.md R202). -/
def Sched.pending : Sched → Bool
  | .none => false
  | .once _ => true
  | .recurring _ => true

/-- The timer agent has a step (41_sequencer.md R130), once the block exists (70_reset_and_hazards.md R230). -/
def State.timerReady (s : State) : Bool := s.constructed && s.sched.pending

/-- What is pending once the timer has fired: a one-shot is consumed, a recurring request stays
(41_sequencer.md R130). -/
def Sched.afterFiring : Sched → Sched
  | .none => .none
  | .once _ => .none
  | .recurring p => .recurring p

/-- Entering a tick (41_sequencer.md R130, 60_exceptions.md R204): nothing is saved and no mode changes.
This is the block's only event entry. -/
def State.enterTick (s : State) : State := { s with sched := s.sched.afterFiring }

/-- Leaving a tick (41_sequencer.md R131, 60_exceptions.md R205): the last statement writes the successor
state, and nothing is restored. -/
def State.leaveTick (s : State) (successor : BitVec 3) : State := { s with pstate := successor }

/-! ### Results (00_scope.md R12) -/

/-- An accessor returns `v` to the host. -/
def State.returnToHost (s : State) (v : Value) : State := { s with returns := s.returns ++ [v] }

/-- A micro-operation run by itself returns `v` (log 14). -/
def State.returnMicro (s : State) (v : Value) : State := { s with microResult := some v }

/-! ### The marks (10_state.md R29) -/

/-- A mark is set, so that no agent has a step (60_exceptions.md R201). -/
def State.marked (s : State) : Bool := s.fault.isSome || s.refused

/-- The refusals that set the mark `refused`: those of a host word (10_state.md R29, 30_encoding.md R72,
70_reset_and_hazards.md R230). A micro or wire word on the model's own ports before construction is refused as
`notConstructed` too, and sets the mark like a host word: DESIGN CHOICE, safe (log 16). The other reasons are of a
stuck run, which sets no mark (R243), or of the model's ports. -/
def Refusal.ofHostWord : Refusal → Bool
  | .reservedHostWord _ => true
  | .notConstructed => true
  | _ => false

/-- Record a fault: the first one stays (10_state.md R29). -/
def State.recordFault (s : State) (k : Fault) : State :=
  { s with fault := some (s.fault.getD k) }

/-- The state a step leaves, whatever its outcome: a fault records its kind, a refused word the mark
`refused`, a stuck step nothing (10_state.md R29, 30_encoding.md R72, 60_exceptions.md R201; log 13). -/
def State.settle (s : State) : Host.Outcome State Fault Refusal → State
  | .next t => t
  | .fault k => s.recordFault k
  | .refused r => if r.ofHostWord then { s with refused := true } else s

end Sys2Proof.Machine
end

