-- ==== Sys2Proof/Machine/Bus.lean ====
section
/-! DEFINITION. The bus signalling primitives (40_bus.md): the line programs, the primitives over them, and the
meanings of the micro-operations that run one. -/

namespace Sys2Proof.Machine

/-! ### The line programs (40_bus.md R103 to R111, R114: exact, without variants) -/

/-- PULSE (40_bus.md R103). -/
def pulseOps : List LineOp := [.clk true, .wait, .clk false, .wait]

/-- START (40_bus.md R104). The edge order is the spec's own decision D9, from general knowledge of the
SHT1x (93_implementation_defined.md G2): PRESUMED, unsafe (log 11). -/
def startOps : List LineOp :=
  [.ddir .output, .dout true, .wait,
   .clk true, .wait,
   .dout false, .wait,
   .clk false, .wait,
   .clk true, .wait,
   .dout true, .wait,
   .clk false, .wait]

/-- SOFT_RESET (40_bus.md R105), with `RESET_PULSES` pulses. -/
def softResetOps (pulses : Nat) : List LineOp :=
  [.ddir .output, .dout true, .clk false, .wait] ++ (List.replicate pulses pulseOps).flatten

/-- One command bit: set up while CLOCK is low, held through the pulse (40_bus.md R106). -/
def sendBitOps (b : Bool) : List LineOp := [.dout b, .wait] ++ pulseOps

/-- SEND_COMMAND c (40_bus.md R106): `CMD_BITS` bits, MSB first, then the ACK slot. -/
def sendCommandOps (bits : Nat) (c : Byte) : List LineOp :=
  [.ddir .output] ++ (bitsMsbFirst c bits).flatMap sendBitOps
    ++ [.ddir .input, .clk true, .wait, .din, .clk false, .wait]

/-- One received bit: sampled while CLOCK is high (40_bus.md R107). -/
def receiveBitOps : List LineOp := [.clk true, .wait, .din, .clk false, .wait]

/-- RECEIVE_BYTE (40_bus.md R107). -/
def receiveByteOps : List LineOp := [.ddir .input] ++ (List.replicate 8 receiveBitOps).flatten

/-- ACK_BYTE (40_bus.md R108). -/
def ackByteOps : List LineOp := [.ddir .output, .dout false, .wait] ++ pulseOps ++ [.ddir .input]

/-- TERMINATE (40_bus.md R109). -/
def terminateOps : List LineOp := [.ddir .output, .dout true, .wait] ++ pulseOps

/-! ### The primitives, as the ticks and the host operations invoke them -/

/-- PULSE (40_bus.md R103). -/
def pulse (s : State) : Host.Outcome State Fault Refusal := s.drive pulseOps

/-- START (40_bus.md R104). -/
def start (s : State) : Host.Outcome State Fault Refusal := s.drive startOps

/-- SOFT_RESET (40_bus.md R105). -/
def softReset (s : State) : Host.Outcome State Fault Refusal := s.drive (softResetOps s.cfg.resetPulses)

/-- SEND_COMMAND c (40_bus.md R106); the ACK sample is discarded (R112). -/
def sendCommand (c : Byte) (s : State) : Host.Outcome State Fault Refusal := s.drive (sendCommandOps s.cfg.cmdBits c)

/-- RECEIVE_BYTE (40_bus.md R107); the accumulator is local (10_state.md R26). -/
def receiveByte (s : State) : Host.Outcome (Byte × State) Fault Refusal :=
  andThen (s.runLine receiveByteOps) fun p => .next (byteOfSamples p.1, p.2)

/-- ACK_BYTE (40_bus.md R108). -/
def ackByte (s : State) : Host.Outcome State Fault Refusal := s.drive ackByteOps

/-- TERMINATE, or NACK (40_bus.md R109). -/
def terminate (s : State) : Host.Outcome State Fault Refusal := s.drive terminateOps

/-- SAMPLE_READY (40_bus.md R110); it faults while DATA is not an input. -/
def sampleReady (s : State) : Host.Outcome (Bool × State) Fault Refusal :=
  match s.ddir with
  | .output => .fault .badLineMode
  | .input => andThen s.dIn fun p => .next (readyOf p.1, p.2)

/-- RECEIVE_WORD (40_bus.md R111): acknowledge the first byte, terminate after the second. -/
def receiveWord (s : State) : Host.Outcome (Count × State) Fault Refusal :=
  andThen (receiveByte s) fun p0 =>
  andThen (ackByte p0.2) fun s1 =>
  andThen (receiveByte s1) fun p1 =>
  andThen (terminate p1.2) fun s2 =>
  .next (countOfBytes s.cfg.rawBits p0.1 p1.1, s2)

/-- `MEASURE c` (30_encoding.md R86): START, then SEND_COMMAND c. -/
def measure (c : Byte) (s : State) : Host.Outcome State Fault Refusal :=
  andThen (start s) fun s1 => sendCommand c s1

/-! ### The meanings of the micro-operations run by themselves (30_encoding.md R77; log 5, log 14) -/

/-- PULSE (40_bus.md R103). -/
def execPulse (s : State) : Host.Outcome State Fault Refusal := pulse s

/-- START (40_bus.md R104). -/
def execStart (s : State) : Host.Outcome State Fault Refusal := start s

/-- SOFT_RESET (40_bus.md R105). -/
def execSoftReset (s : State) : Host.Outcome State Fault Refusal := softReset s

/-- SEND_COMMAND c (40_bus.md R106), for any byte (30_encoding.md R80). -/
def execSendCommand (c : Byte) (s : State) : Host.Outcome State Fault Refusal := sendCommand c s

/-- RECEIVE_BYTE (40_bus.md R107), returning a `u8`. -/
def execReceiveByte (s : State) : Host.Outcome State Fault Refusal :=
  andThen (receiveByte s) fun p => .next (p.2.returnMicro (.byte p.1))

/-- ACK_BYTE (40_bus.md R108). -/
def execAckByte (s : State) : Host.Outcome State Fault Refusal := ackByte s

/-- TERMINATE (40_bus.md R109). -/
def execTerminate (s : State) : Host.Outcome State Fault Refusal := terminate s

/-- SAMPLE_READY (40_bus.md R110), returning the ready value. -/
def execSampleReady (s : State) : Host.Outcome State Fault Refusal :=
  andThen (sampleReady s) fun p => .next (p.2.returnMicro (.flag p.1))

/-- RECEIVE_WORD (40_bus.md R111), returning a `u16`. -/
def execReceiveWord (s : State) : Host.Outcome State Fault Refusal :=
  andThen (receiveWord s) fun p => .next (p.2.returnMicro (.word p.1))

/-! ### The wire commands (30_encoding.md R79, R86) -/

/-- MEASURE_T: the command frame TICK.S0 sends (41_sequencer.md R132). -/
def execMeasureT (s : State) : Host.Outcome State Fault Refusal := measure s.cfg.cmdTemp s

/-- MEASURE_RH: the command frame TICK.S3 sends (41_sequencer.md R135). -/
def execMeasureRh (s : State) : Host.Outcome State Fault Refusal := measure s.cfg.cmdHum s

end Sys2Proof.Machine
end

