-- ==== Sys2Proof/Machine/Float.lean ====
section
/-! DEFINITION. IEEE 754 addition, subtraction and multiplication in binary64 and binary32, rounded to
nearest with ties to even (00_scope.md R10, 42_conversion.md R160), and the calibration constants. -/

namespace Sys2Proof.Machine

/-! A finite value of a format is an integer number of its least subnormal, the UNIT 2^(-scale); exact sums
are integers in units, exact products integers in units of 2^(-2·scale). -/

/-- Width of the fraction field. -/
def fracBits : Fmt → Nat
  | .binary64 => 52
  | .binary32 => 23

/-- The unit is 2^(-scale). -/
def scale : Fmt → Nat
  | .binary64 => 1074
  | .binary32 => 149

/-- The weight of the sign bit in a pattern. -/
def signWeight : Fmt → Nat
  | .binary64 => 2 ^ 63
  | .binary32 => 2 ^ 31

/-- The pattern of plus infinity; the patterns below it are the finite magnitudes, in order. -/
def infMag : Fmt → Nat
  | .binary64 => 0x7FF0000000000000
  | .binary32 => 0x7F800000

/-- The sign of a value. -/
def isNeg (f : Fmt) (x : FVal) : Bool := x.toNat / signWeight f % 2 == 1

/-- The pattern without its sign. -/
def magOf (f : Fmt) (x : FVal) : Nat := x.toNat % signWeight f

/-- `x` is finite. -/
def isFiniteNum (f : Fmt) (x : FVal) : Bool := decide (magOf f x < infMag f)

/-- `x` is an infinity. -/
def isInfNum (f : Fmt) (x : FVal) : Bool := decide (magOf f x = infMag f)

/-- `x` is a NaN. -/
def isNaNNum (f : Fmt) (x : FVal) : Bool := decide (infMag f < magOf f x)

/-- The magnitude of a finite pattern in units: subnormal below exponent field 1, with a hidden bit above. -/
def unitsOfMag (f : Fmt) (m : Nat) : Nat :=
  let e := m / 2 ^ fracBits f
  let fr := m % 2 ^ fracBits f
  if e = 0 then fr else (2 ^ fracBits f + fr) * 2 ^ (e - 1)

/-- The value of a finite pattern in units, with its sign. -/
def unitsOf (f : Fmt) (x : FVal) : Int :=
  if isNeg f x then -(unitsOfMag f (magOf f x) : Int) else (unitsOfMag f (magOf f x) : Int)

/-- How many low bits of `n`, in units of 2^(-scale-k), the format cannot hold: never fewer than `k`. -/
def roundShift (f : Fmt) (k n : Nat) : Nat := max k (n.log2 - fracBits f)

/-- `n / 2^s` rounded to the nearest integer, ties to even. -/
def roundQuot (n s : Nat) : Nat :=
  let q := n / 2 ^ s
  let r := n % 2 ^ s
  if 2 ^ s < 2 * r ∨ (2 * r = 2 ^ s ∧ q % 2 = 1) then q + 1 else q

/-- The pattern nearest to the exact magnitude `n` · 2^(-scale-k), ties to even; infinity beyond the range.
A significand that rounds up to the next power of two carries into the exponent field by itself. -/
def roundMag (f : Fmt) (k n : Nat) : Nat :=
  let s := roundShift f k n
  min (infMag f) ((s - k) * 2 ^ fracBits f + roundQuot n s)

/-- A pattern from its sign and the rest. -/
def packNum (f : Fmt) (neg : Bool) (m : Nat) : FVal :=
  BitVec.ofNat 64 (if neg then signWeight f + m else m)

/-- The quiet bit of a NaN. -/
def quietBit (f : Fmt) : Nat := 2 ^ (fracBits f - 1)

/-- A quiet NaN whose sign and remaining payload are free (log 9). -/
def freeNaN (f : Fmt) (op : FloatOp) (x y : FVal) : FVal :=
  packNum f (isNeg f (Config.nanBits f op x y))
    (infMag f + quietBit f + (Config.nanBits f op x y).toNat % quietBit f)

/-- `x` with its sign reversed. -/
def negNum (f : Fmt) (x : FVal) : FVal := packNum f (!isNeg f x) (magOf f x)

/-- The rounded sum of two finite values. An exact zero is positive unless both operands are negative zero. -/
def addFinite (f : Fmt) (x y : FVal) : FVal :=
  let z := unitsOf f x + unitsOf f y
  if z = 0 then packNum f (isNeg f x && isNeg f y) 0
  else packNum f (decide (z < 0)) (roundMag f 0 z.natAbs)

/-- The sum of two values, the NaN of an invalid operation being that of `op`. -/
def addNum (f : Fmt) (op : FloatOp) (x y : FVal) : FVal :=
  if isNaNNum f x || isNaNNum f y || (isInfNum f x && isInfNum f y && (isNeg f x != isNeg f y)) then
    freeNaN f op x y
  else if isInfNum f x then x
  else if isInfNum f y then y
  else addFinite f x y

/-- `fl(x + y)` (00_scope.md R10). -/
def flAdd (f : Fmt) (x y : FVal) : FVal := addNum f .add x y

/-- `fl(x − y)` (00_scope.md R10): x plus the reversed y. -/
def flSub (f : Fmt) (x y : FVal) : FVal := addNum f .sub x (negNum f y)

/-- `fl(x × y)` (00_scope.md R10). -/
def flMul (f : Fmt) (x y : FVal) : FVal :=
  let neg := isNeg f x != isNeg f y
  if isNaNNum f x || isNaNNum f y || (isInfNum f x && decide (magOf f y = 0))
      || (isInfNum f y && decide (magOf f x = 0)) then
    freeNaN f .mul x y
  else if isInfNum f x || isInfNum f y then packNum f neg (infMag f)
  else packNum f neg (roundMag f (scale f) (unitsOfMag f (magOf f x) * unitsOfMag f (magOf f y)))

/-- `toF(n)` (00_scope.md R10; 42_conversion.md R166 says it is exact for every `n` that occurs). -/
def toF (f : Fmt) (n : Nat) : FVal := packNum f false (roundMag f 0 (n * 2 ^ scale f))

/-! ### The calibration constants (42_conversion.md R161) -/

/-- 0.01, for both formulas. -/
def kT1 : Fmt → FVal
  | .binary64 => 0x3F847AE147AE147B#64
  | .binary32 => 0x3C23D70A#64

/-- 40.0. -/
def kT0 : Fmt → FVal
  | .binary64 => 0x4044000000000000#64
  | .binary32 => 0x42200000#64

/-- 25.0. -/
def kRef : Fmt → FVal
  | .binary64 => 0x4039000000000000#64
  | .binary32 => 0x41C80000#64

/-- 0.00008. -/
def kH2 : Fmt → FVal
  | .binary64 => 0x3F14F8B588E368F1#64
  | .binary32 => 0x38A7C5AC#64

/-- 4.0. -/
def kH0 : Fmt → FVal
  | .binary64 => 0x4010000000000000#64
  | .binary32 => 0x40800000#64

/-- 0.0405. -/
def kH1 : Fmt → FVal
  | .binary64 => 0x3FA4BC6A7EF9DB23#64
  | .binary32 => 0x3D25E354#64

/-- 0.0000028. -/
def kHq : Fmt → FVal
  | .binary64 => 0x3EC77CF44765195F#64
  | .binary32 => 0x363BE7A2#64

end Sys2Proof.Machine
end

