-- ==== Sys2Proof/Machine/Conversion.lean ====
section
/-! DEFINITION. The conversion pipeline (42_conversion.md): pure functions of the parameters and the operands (R167). -/

namespace Sys2Proof.Machine

/-- CONV_TEMP(r) = fl(fl(toF(r) × K_T1) − K_T0) (42_conversion.md R162). -/
def convTemp (f : Fmt) (r : Count) : FVal :=
  flSub f (flMul f (toF f r.toNat) (kT1 f)) (kT0 f)

/-- SQTERM(H) (42_conversion.md R164). -/
def sqTerm (f : Fmt) (o : SqOrder) (h : FVal) : FVal :=
  match o with
  | .productFirst => flMul f (kHq f) (flMul f h h)
  | .coefFirst => flMul f (flMul f (kHq f) h) h

/-- CONV_HUM(t, h) (42_conversion.md R163), step by step. -/
def convHum (f : Fmt) (o : SqOrder) (t : FVal) (h : Count) : FVal :=
  let hF := toF f h.toNat
  let a := flSub f t (kRef f)
  let b := flMul f (kH2 f) hF
  let c := flAdd f (kT1 f) b
  let d := flMul f a c
  let e := flSub f d (kH0 f)
  let fHum := flMul f (kH1 f) hF
  let g := flAdd f e fHum
  let q := sqTerm f o hF
  flSub f g q

/-- CONV_TEMP run by itself (30_encoding.md R77; log 5, log 14). -/
def execConvTemp (r : Count) (s : State) : Host.Outcome State Fault Refusal :=
  .next (s.returnMicro (.num (convTemp s.cfg.fmt r)))

/-- CONV_HUM run by itself (30_encoding.md R77; log 5, log 14). -/
def execConvHum (t : FVal) (h : Count) (s : State) : Host.Outcome State Fault Refusal :=
  .next (s.returnMicro (.num (convHum s.cfg.fmt s.cfg.sqOrder t h)))

end Sys2Proof.Machine
end

