-- ==== Sys2Proof/Machine/Sequencer.lean ====
section
/-! DEFINITION. The measurement sequencer (41_sequencer.md): the meanings of the six ticks. -/

namespace Sys2Proof.Machine

/-- Send a measurement command and wait for the result (41_sequencer.md R132, R135). -/
def beginMeasurement (c : Byte) (successor : BitVec 3) (s : State) : Host.Outcome State Fault Refusal :=
  andThen (measure c s) fun s1 => .next ((s1.schedOnce s1.cfg.pollUs).leaveTick successor)

/-- What a ready poll does once the sample is taken (41_sequencer.md R133, R136). -/
def afterPoll (stay go : BitVec 3) (ready : Bool) (s : State) : State :=
  if ready then (s.schedOnce s.cfg.fastUs).leaveTick go else (s.schedOnce s.cfg.pollUs).leaveTick stay

/-- Poll the measurement-ready signal (41_sequencer.md R133, R136). There is no timeout (R142). -/
def pollReady (stay go : BitVec 3) (s : State) : Host.Outcome State Fault Refusal :=
  andThen (sampleReady s) fun p => .next (afterPoll stay go p.1 p.2)

/-- Publish a pair in one write (10_state.md R22, 20_memory.md R55). -/
def State.publish (s : State) (t h : FVal) : State := { s with reading := some (t, h) }

/-- TICK.S0 (41_sequencer.md R132). -/
def execTickS0 (s : State) : Host.Outcome State Fault Refusal := beginMeasurement s.cfg.cmdTemp 1#3 s

/-- TICK.S1 (41_sequencer.md R133). -/
def execTickS1 (s : State) : Host.Outcome State Fault Refusal := pollReady 1#3 2#3 s

/-- TICK.S2 (41_sequencer.md R134). -/
def execTickS2 (s : State) : Host.Outcome State Fault Refusal :=
  andThen (receiveWord s) fun p =>
    let s1 := { p.2 with rawTemp := some p.1 }
    .next ((s1.schedOnce s1.cfg.fastUs).leaveTick 3#3)

/-- TICK.S3 (41_sequencer.md R135). -/
def execTickS3 (s : State) : Host.Outcome State Fault Refusal := beginMeasurement s.cfg.cmdHum 4#3 s

/-- TICK.S4 (41_sequencer.md R136). -/
def execTickS4 (s : State) : Host.Outcome State Fault Refusal := pollReady 4#3 5#3 s

/-- TICK.S5 (41_sequencer.md R137). The check of the raw temperature stands before the bus activity. -/
def execTickS5 (s : State) : Host.Outcome State Fault Refusal :=
  match s.rawTemp with
  | none => .fault .rawTempUnwritten
  | some r =>
    andThen (receiveWord s) fun p =>
      let t := convTemp p.2.cfg.fmt r
      let h := convHum p.2.cfg.fmt p.2.cfg.sqOrder t p.1
      let s1 := { p.2.publish t h with rawTemp := none }
      .next ((s1.schedRec s1.period).leaveTick 0#3)

end Sys2Proof.Machine
end

