-- ==== Sys2Proof/Machine/Shell.lean ====
section
/-! DEFINITION. The host operations (43_shell.md, 70_reset_and_hazards.md R231). -/

namespace Sys2Proof.Machine

/-- REARM (43_shell.md R180), shared by INIT, SET_CYCLE_PERIOD and RESET. -/
def rearm (s : State) : Host.Outcome State Fault Refusal :=
  andThen (softReset s) fun s1 =>
    let s2 := { s1 with pstate := 0#3, rawTemp := none }
    .next (s2.schedRec s2.period).enable

/-- What RESET writes before it drives the bus (70_reset_and_hazards.md R231). No Cancel is logged. -/
def State.construct (s : State) (p : FVal) : State :=
  { s.disarm with
    period := p
    reading := none
    rawTemp := none
    pstate := 0#3
    sched := .none
    constructed := true }

/-- RESET period0 (70_reset_and_hazards.md R231). -/
def execReset (period0 : FVal) (s : State) : Host.Outcome State Fault Refusal :=
  match clamp s.cfg period0 with
  | none => .fault .badPeriod
  | some p => if s.cfg.armAtConstruction then rearm (s.construct p) else softReset (s.construct p)

/-- INIT (43_shell.md R181). -/
def execInit (s : State) : Host.Outcome State Fault Refusal := rearm s

/-- DISABLE (43_shell.md R182). -/
def execDisable (s : State) : Host.Outcome State Fault Refusal := .next s.cancel.disarm

/-- SET_CYCLE_PERIOD x (43_shell.md R183; 90_conflicts.md C2, C3). -/
def execSetCyclePeriod (x : FVal) (s : State) : Host.Outcome State Fault Refusal :=
  match clamp s.cfg x with
  | none => .fault .badPeriod
  | some p =>
    let s1 := { s with period := p }
    if s1.enabled then rearm s1.cancel else .next s1

/-- The published pair, or the fault of an accessor before the first publication (43_shell.md R185 to R187). -/
def State.published (s : State) : Host.Outcome (FVal × FVal) Fault Refusal :=
  match s.reading with
  | none => .fault .readingUnwritten
  | some r => .next r

/-- LAST_TEMPERATURE (43_shell.md R185). -/
def execLastTemperature (s : State) : Host.Outcome State Fault Refusal :=
  andThen s.published fun r => .next (s.returnToHost (.num r.1))

/-- LAST_HUMIDITY (43_shell.md R186). -/
def execLastHumidity (s : State) : Host.Outcome State Fault Refusal :=
  andThen s.published fun r => .next (s.returnToHost (.num r.2))

/-- LAST_BOTH (43_shell.md R187). -/
def execLastBoth (s : State) : Host.Outcome State Fault Refusal :=
  andThen s.published fun r => .next (s.returnToHost (.pair r.1 r.2))

end Sys2Proof.Machine
end

