-- ==== Sys2Proof/Machine/Dispatch.lean ====
section
/-! DEFINITION. One arm per instruction. -/

namespace Sys2Proof.Machine

def exec (i : Instr) (s : State) : Host.Outcome State Fault Refusal :=
  match i with
  -- host operations
  | .reset period0 => Sys2Proof.Machine.execReset period0 s
  | .init => Sys2Proof.Machine.execInit s
  | .disable => Sys2Proof.Machine.execDisable s
  | .setCyclePeriod x => Sys2Proof.Machine.execSetCyclePeriod x s
  | .lastTemperature => Sys2Proof.Machine.execLastTemperature s
  | .lastHumidity => Sys2Proof.Machine.execLastHumidity s
  | .lastBoth => Sys2Proof.Machine.execLastBoth s
  -- ticks
  | .tickS0 => Sys2Proof.Machine.execTickS0 s
  | .tickS1 => Sys2Proof.Machine.execTickS1 s
  | .tickS2 => Sys2Proof.Machine.execTickS2 s
  | .tickS3 => Sys2Proof.Machine.execTickS3 s
  | .tickS4 => Sys2Proof.Machine.execTickS4 s
  | .tickS5 => Sys2Proof.Machine.execTickS5 s
  -- micro-operations
  | .pulse => Sys2Proof.Machine.execPulse s
  | .start => Sys2Proof.Machine.execStart s
  | .softReset => Sys2Proof.Machine.execSoftReset s
  | .sendCommand c => Sys2Proof.Machine.execSendCommand c s
  | .receiveByte => Sys2Proof.Machine.execReceiveByte s
  | .ackByte => Sys2Proof.Machine.execAckByte s
  | .terminate => Sys2Proof.Machine.execTerminate s
  | .sampleReady => Sys2Proof.Machine.execSampleReady s
  | .receiveWord => Sys2Proof.Machine.execReceiveWord s
  | .convTemp r => Sys2Proof.Machine.execConvTemp r s
  | .convHum t h => Sys2Proof.Machine.execConvHum t h s
  -- wire commands
  | .measureT => Sys2Proof.Machine.execMeasureT s
  | .measureRh => Sys2Proof.Machine.execMeasureRh s

end Sys2Proof.Machine
end

