-- ==== Sys2Proof/Decode.lean ====
section
/-! DEFINITION. The decoder of the four encoding spaces, total and rejecting by name (30_encoding.md R84), and the encoder. -/

namespace Sys2Proof

/-- Host words (30_encoding.md R71, R72). -/
def decodeHost (op : Byte) (x : FVal) : Except Reject Instr :=
  match op.toNat with
  | 0x01 => .ok (.reset x)
  | 0x02 => .ok .init
  | 0x03 => .ok .disable
  | 0x04 => .ok (.setCyclePeriod x)
  | 0x08 => .ok .lastTemperature
  | 0x09 => .ok .lastHumidity
  | 0x0A => .ok .lastBoth
  | _ => .error (.reservedHostWord op)

/-- State codes (30_encoding.md R74, R75; 41_sequencer.md R131). -/
def decodeTick (code : BitVec 3) : Except Reject Instr :=
  match code.toNat with
  | 0 => .ok .tickS0
  | 1 => .ok .tickS1
  | 2 => .ok .tickS2
  | 3 => .ok .tickS3
  | 4 => .ok .tickS4
  | 5 => .ok .tickS5
  | _ => .error (.invalidStateCode code)

/-- The micro-opcode `u[11:8]` (30_encoding.md R76). -/
def microOpcode (u : BitVec 12) : BitVec 4 := u.extractLsb' 8 4

/-- The immediate `u[7:0]` (30_encoding.md R76). -/
def microImm (u : BitVec 12) : Byte := u.extractLsb' 0 8

/-- The micro-operations whose `imm8` is 0 (30_encoding.md R77), by micro-opcode. -/
def decodePlainMicro (u : BitVec 12) (t : FVal) (n : Count) : Except Reject Instr :=
  match (microOpcode u).toNat with
  | 0x0 => .ok .pulse
  | 0x1 => .ok .start
  | 0x2 => .ok .softReset
  | 0x4 => .ok .receiveByte
  | 0x5 => .ok .ackByte
  | 0x6 => .ok .terminate
  | 0x7 => .ok .sampleReady
  | 0x8 => .ok .receiveWord
  | 0x9 => .ok (.convTemp n)
  | 0xA => .ok (.convHum t n)
  | _ => .error (.reservedMicroOp u)

/-- Micro-operation words (30_encoding.md R76, R77). -/
def decodeMicro (u : BitVec 12) (t : FVal) (n : Count) : Except Reject Instr :=
  if microOpcode u = 0x3#4 then .ok (.sendCommand (microImm u))
  else if microImm u = 0#8 then decodePlainMicro u t n
  else .error (.reservedMicroOp u)

/-- Wire commands (30_encoding.md R79). -/
def decodeWire (c : Byte) : Except Reject Instr :=
  match c.toNat with
  | 0x03 => .ok .measureT
  | 0x05 => .ok .measureRh
  | _ => .error (.unknownWireCommand c)

/-- The instruction a raw word stands for, or why it stands for none (30_encoding.md R84). -/
def decode : Request → Except Reject Instr
  | .host op x => decodeHost op x
  | .tick code => decodeTick code
  | .micro u t n => decodeMicro u t n
  | .wire c => decodeWire c

/-- The word of an instruction, from the tables of 30_encoding.md R71, R74, R77 and R79.
Operands no rule uses are 0. -/
def encode : Instr → Request
  | .reset x => .host 0x01#8 x
  | .init => .host 0x02#8 0#64
  | .disable => .host 0x03#8 0#64
  | .setCyclePeriod x => .host 0x04#8 x
  | .lastTemperature => .host 0x08#8 0#64
  | .lastHumidity => .host 0x09#8 0#64
  | .lastBoth => .host 0x0A#8 0#64
  | .tickS0 => .tick 0#3
  | .tickS1 => .tick 1#3
  | .tickS2 => .tick 2#3
  | .tickS3 => .tick 3#3
  | .tickS4 => .tick 4#3
  | .tickS5 => .tick 5#3
  | .pulse => .micro 0x000#12 0#64 0#16
  | .start => .micro 0x100#12 0#64 0#16
  | .softReset => .micro 0x200#12 0#64 0#16
  | .sendCommand c => .micro (0x3#4 ++ c) 0#64 0#16
  | .receiveByte => .micro 0x400#12 0#64 0#16
  | .ackByte => .micro 0x500#12 0#64 0#16
  | .terminate => .micro 0x600#12 0#64 0#16
  | .sampleReady => .micro 0x700#12 0#64 0#16
  | .receiveWord => .micro 0x800#12 0#64 0#16
  | .convTemp r => .micro 0x900#12 0#64 r
  | .convHum t h => .micro 0xA00#12 t h
  | .measureT => .wire 0x03#8
  | .measureRh => .wire 0x05#8

/-- Whether a raw word decodes. -/
def Request.decodes (r : Request) : Bool :=
  match decode r with
  | .ok _ => true
  | .error _ => false

/-- The first of `rs` that decodes; `d` where none does. -/
def firstDecoding (d : Request) : List Request → Request
  | [] => d
  | r :: rs => if r.decodes then r else firstDecoding d rs

/-- The raw word a row of the opcode table of `nbits` bits and value `w` stands for. Three formats of the
table fit in one byte (host8, tick, wire_cmd), and neither `nbits` nor `w` says which is meant: the
host space is read first, then the state codes, then the wire commands, and the first in which `w` is
an instruction is taken (DESIGN CHOICE, log 6). A word no space knows stays a host word, which the
machine refuses (30_encoding.md R72). Operands beside the word are 0. -/
def tableRequest (nbits w : Nat) : Option Request :=
  if nbits = 8 then
    if w < 256 then
      let host := Request.host (BitVec.ofNat 8 w) 0#64
      let ticks := if w < 8 then [Request.tick (BitVec.ofNat 3 w)] else []
      some (firstDecoding host (host :: ticks ++ [.wire (BitVec.ofNat 8 w)]))
    else none
  else if nbits = 16 ∨ nbits = 12 then
    if w < 4096 then some (.micro (BitVec.ofNat 12 w) 0#64 0#16) else none
  else if nbits = 3 then
    if w < 8 then some (.tick (BitVec.ofNat 3 w)) else none
  else none

/-- What the decoder reads from a row's word (log 6). -/
def decodeTableWord (nbits w : Nat) : Option Instr :=
  match tableRequest nbits w with
  | none => none
  | some r =>
    match decode r with
    | .ok i => some i
    | .error _ => none

end Sys2Proof
end

