-- ==== Sys2Proof/WellFormed.lean ====
section
/-! DEFINITION. Which instructions are well formed: every operand a value of its type. -/

namespace Sys2Proof

/-- A pattern is a value of format `fmt` (log 8): a binary32 pattern uses bits 31 to 0 only. -/
def Fmt.holds : Fmt → FVal → Bool
  | .binary64, _ => true
  | .binary32, x => decide (x.toNat < 2 ^ 32)

/-- Every operand is a value of the type its rule gives it. Only CONV_HUM's `t` can fail: it is of type
FMT (42_conversion.md R163). The binary64 operands and the `u8` and `u16` operands fill their types. -/
def Instr.wellFormed (fmt : Fmt) : Instr → Bool
  | .convHum t _ => fmt.holds t
  | .reset _ | .init | .disable | .setCyclePeriod _ | .lastTemperature | .lastHumidity | .lastBoth
  | .tickS0 | .tickS1 | .tickS2 | .tickS3 | .tickS4 | .tickS5
  | .pulse | .start | .softReset | .sendCommand _ | .receiveByte | .ackByte | .terminate | .sampleReady
  | .receiveWord | .convTemp _ | .measureT | .measureRh => true

end Sys2Proof
end

