-- ==== Sys2Proof/Machine/Fetch.lean ====
section
/-! DEFINITION. Which instruction runs next: the next stimulus of the agenda, or the timer's own firing. -/

namespace Sys2Proof.Machine

/-- How a raw word that is no instruction stops: a host word is refused (30_encoding.md R72), a state code
faults BadState (R74), a micro word faults BadMicroOp (R77), an unknown wire byte is refused (log 17). -/
def stopOf {α : Type} : Reject → Host.Outcome α Fault Refusal
  | .reservedHostWord op => .refused (.reservedHostWord op)
  | .invalidStateCode _ => .fault .badState
  | .reservedMicroOp _ => .fault .badMicroOp
  | .unknownWireCommand c => .refused (.unknownWireCommand c)

/-- Before construction only RESET has a meaning (70_reset_and_hazards.md R230). -/
def mayRun (constructed : Bool) : Instr → Bool
  | .reset _ => true
  | .init | .disable | .setCyclePeriod _ | .lastTemperature | .lastHumidity | .lastBoth
  | .tickS0 | .tickS1 | .tickS2 | .tickS3 | .tickS4 | .tickS5
  | .pulse | .start | .softReset | .sendCommand _ | .receiveByte | .ackByte | .terminate | .sampleReady
  | .receiveWord | .convTemp _ | .convHum _ _ | .measureT | .measureRh => constructed

/-- Decode a raw word and check it: what runs, and the state it runs in. -/
def admitWord (r : Request) (s : State) : Host.Outcome (Option Instr × State) Fault Refusal :=
  match decode r with
  | .error e => stopOf e
  | .ok i =>
    if mayRun s.constructed i then
      if i.wellFormed s.cfg.fmt then .next (some i, s) else .refused .illFormed
    else .refused .notConstructed

/-- A word on the model's own ports, which no agent outside the block can issue (30_encoding.md R76): refused unless
the ports are open (log 5). -/
def admitPort (r : Request) (s : State) : Host.Outcome (Option Instr × State) Fault Refusal :=
  if s.ports then admitWord r s else .refused .portClosed

/-- FIRE (41_sequencer.md R130, R131): consume a one-shot, then dispatch on `pstate`. -/
def fireTick (s : State) : Host.Outcome (Option Instr × State) Fault Refusal :=
  if s.timerReady then admitWord (.tick s.pstate) s.enterTick else .refused .noSchedule

/-- What happens when the host and the script have nothing more to say: a pending schedule fires
(41_sequencer.md R145; log 3), a script ends (70_reset_and_hazards.md R243), and a block with no schedule
is quiescent (60_exceptions.md R213(b)). -/
def fetchIdle (s : State) : Host.Outcome (Option Instr × State) Fault Refusal :=
  if s.script then .refused .scriptEnded
  else if s.timerReady then fireTick s
  else .refused .quiescent

/-- One stimulus, in the state where it has left the agenda. `none`: a SENSOR line, which runs no instruction. -/
def react (s : State) : Stimulus → Host.Outcome (Option Instr × State) Fault Refusal
  | .host op x => admitWord (.host op x) s
  | .fire => fireTick s
  | .sensor vs => .next (none, { s with draws := s.draws ++ vs })
  | .micro u t n => admitPort (.micro u t n) s
  | .wire c => admitPort (.wire c) s

/-- What the next step runs. Once a mark is set nothing does (10_state.md R29, 60_exceptions.md R201). -/
def fetch (s : State) : Host.Outcome (Option Instr × State) Fault Refusal :=
  if s.marked then .refused .halted
  else match s.agenda with
    | [] => fetchIdle s
    | e :: rest => react { s with agenda := rest } e

/-- The state in which a word placed from outside can run: constructed and without a mark. -/
def State.runnable (s : State) : State :=
  { s with constructed := true, fault := none, refused := false }

/-- The state with the model's own ports open (log 5), for a micro or wire word placed from outside. -/
def State.openPorts (s : State) : State := { s with ports := true }

/-- A pending schedule for a tick placed from outside: the one there is, or the fast poll. -/
def State.withSchedule (s : State) : State :=
  match s.sched with
  | .none => { s with sched := .once s.cfg.pollUs, enabled := true }
  | .once _ => s
  | .recurring _ => s

/-- Put a raw word where the next step takes it (log 6): a host, micro or wire word at the head of the
agenda, with the ports open for the last two; a tick's code in `pstate`, with a firing of the timer at the head. -/
def State.place (s : State) : Request → State
  | .host op x => { s.runnable with agenda := .host op x :: s.agenda }
  | .tick code => { s.runnable.withSchedule with pstate := code, agenda := .fire :: s.agenda }
  | .micro u t n => { s.runnable.openPorts with agenda := .micro u t n :: s.agenda }
  | .wire c => { s.runnable.openPorts with agenda := .wire c :: s.agenda }

end Sys2Proof.Machine
end

