-- ==== Sys2Proof/Machine/Step.lean ====
section
/-! DEFINITION. One step of the machine: one host operation, one tick, one script line or one port word
(20_memory.md R56). -/

namespace Sys2Proof.Machine

/-- Run what the fetch gives: an instruction by its meaning; a SENSOR line is done by then. -/
def runFetched (p : Option Instr × State) : Host.Outcome State Fault Refusal :=
  match p.1 with
  | none => .next p.2
  | some i => exec i p.2

/-- One step (00_scope.md R12: done, fault or refused). -/
def step (s : State) : Host.Outcome State Fault Refusal := andThen (fetch s) runFetched

/-- `s` with the word of an opcode-table row placed where the next step takes it (log 6). -/
def State.withFetchWord (s : State) (nbits w : Nat) : State :=
  match tableRequest nbits w with
  | none => s
  | some r => s.place r

end Sys2Proof.Machine
end

