-- ==== Sys2Proof/Machine/Run.lean ====
section
/-! DEFINITION. Runs: the configuration before construction (70_reset_and_hazards.md R230) and a script and
its end (R243). -/

namespace Sys2Proof.Machine

/-- The configuration before construction (70_reset_and_hazards.md R230): `s` stands for the unspecified
fields; no mark is set, nothing has been observed, and no SENSOR value is queued. -/
def State.unbuilt (s : State) : State :=
  { s with
    constructed := false
    fault := none
    refused := false
    trace := []
    timerLog := []
    returns := []
    microResult := none
    draws := [] }

/-- A script about to run from the configuration before construction (70_reset_and_hazards.md R243). -/
def State.scriptStart (s : State) (lines : List Stimulus) : State :=
  { s.unbuilt with script := true, agenda := lines }

/-- A run of at most `n` steps, and the state it leaves: a step that stops leaves its mark
(`State.settle`), and nothing follows it (70_reset_and_hazards.md R243). -/
def runFor : Nat → State → State
  | 0, s => s
  | n + 1, s =>
    match step s with
    | .next t => runFor n t
    | .fault k => s.settle (.fault k)
    | .refused r => s.settle (.refused r)

/-- A script's run from the configuration before construction: one step a line (70_reset_and_hazards.md R243). -/
def runScript (s : State) (lines : List Stimulus) : State :=
  runFor lines.length (s.scriptStart lines)

/-- The run ended successfully: every line was taken and no mark is set (70_reset_and_hazards.md R243). -/
def State.endedWell (s : State) : Bool := s.agenda.isEmpty && !s.marked

end Sys2Proof.Machine
end

