-- ==== Sys2Proof/Safety.lean ====
section
/-! DEFINITION. The terms claims use: what the sensor will answer, the traces of the spec, and the invariants
of a sound state. -/

namespace Sys2Proof.Machine

/-! ### What the sensor will answer (40_bus.md R101) -/

/-- The sensor has a value for each of the next `n` samples: always, but in a script only while its SENSOR
queue lasts (70_reset_and_hazards.md R243). -/
def State.canDraw (s : State) (n : Nat) : Bool := !s.script || decide (n ≤ s.draws.length)

/-- The values of the next `n` samples. -/
def State.upcoming (s : State) : Nat → List Bool
  | 0 => []
  | n + 1 => s.nextDraw :: s.pastDraw.upcoming n

/-- The state once the next `n` values have been given: only `draws` and `drawCount` differ. -/
def State.pastDraws (s : State) (n : Nat) : State :=
  { s with draws := s.draws.drop n, drawCount := s.drawCount + (n - s.draws.length) }

/-! ### The traces of the spec, written from its letters (95_test_vectors.md section 3.2) -/

/-- `C1 W C0 W`. -/
def clockPulse : List BusEvent := [.clk true, .wait, .clk false, .wait]

/-- `O D1 W C1 W D0 W C0 W C1 W D1 W C0 W`. -/
def startEvents : List BusEvent :=
  [.ddir .output, .dout true, .wait, .clk true, .wait, .dout false, .wait, .clk false, .wait,
    .clk true, .wait, .dout true, .wait, .clk false, .wait]

/-- `O D1 C0 W` and nine clock pulses. -/
def softResetEvents : List BusEvent :=
  [.ddir .output, .dout true, .clk false, .wait] ++ clockPulse ++ clockPulse ++ clockPulse
    ++ clockPulse ++ clockPulse ++ clockPulse ++ clockPulse ++ clockPulse ++ clockPulse

/-- `O`, then `D<c[i]> W C1 W C0 W` for i = 7 down to 0, then `I C1 W R<ack> C0 W`. -/
def sendCommandEvents (c : Byte) (ack : Bool) : List BusEvent :=
  [.ddir .output]
    ++ [7, 6, 5, 4, 3, 2, 1, 0].flatMap (fun i => [.dout (c.getLsbD i), .wait] ++ clockPulse)
    ++ [.ddir .input, .clk true, .wait, .sample ack, .clk false, .wait]

/-- `I`, then `C1 W R<b> C0 W` for each sample. -/
def receiveByteEvents (vs : List Bool) : List BusEvent :=
  [.ddir .input] ++ vs.flatMap (fun v => [.clk true, .wait, .sample v, .clk false, .wait])

/-- `O D0 W C1 W C0 W I`. -/
def ackByteEvents : List BusEvent := [.ddir .output, .dout false, .wait] ++ clockPulse ++ [.ddir .input]

/-- `O D1 W C1 W C0 W`. -/
def terminateEvents : List BusEvent := [.ddir .output, .dout true, .wait] ++ clockPulse

/-- RECEIVE_BYTE, ACK_BYTE, RECEIVE_BYTE, TERMINATE, for sixteen samples. -/
def receiveWordEvents (vs : List Bool) : List BusEvent :=
  receiveByteEvents (vs.take 8) ++ ackByteEvents ++ receiveByteEvents (vs.drop 8) ++ terminateEvents

/-- The number whose binary digits are `vs`, most significant first (20_memory.md R51, R52). -/
def natOfBits (vs : List Bool) : Nat := vs.foldl (fun n v => 2 * n + v.toNat) 0

/-! ### Real values -/

/-- `k` is a value of format `f` nearest to the decimal `p / q`: no finite value is nearer
(00_scope.md R10, `K(d)`). Both sides are measured in units, times `q`. -/
def nearestTo (f : Fmt) (p q : Nat) (k : FVal) : Prop :=
  isFiniteNum f k = true ∧ ∀ w : FVal, isFiniteNum f w = true →
    (unitsOf f k * q - p * 2 ^ scale f).natAbs ≤ (unitsOf f w * q - p * 2 ^ scale f).natAbs

/-- `z` is the exact `e`, counted in units divided by `d`, rounded to nearest with ties to even
(00_scope.md R10): no finite value is nearer, and where another value is as near, `z` is the even one. -/
def roundedFrom (f : Fmt) (e : Int) (d : Nat) (z : FVal) : Prop :=
  ∀ w : FVal, isFiniteNum f w = true →
    (unitsOf f z * d - e).natAbs ≤ (unitsOf f w * d - e).natAbs ∧
    ((unitsOf f z * d - e).natAbs = (unitsOf f w * d - e).natAbs → unitsOf f w ≠ unitsOf f z →
      z.toNat % 2 = 0)

/-! ### Sound states -/

/-- A period that CLAMP can give: finite and at least 2.0 (10_state.md R25, 43_shell.md R184). -/
abbrev legalPeriod (p : FVal) : Prop := 0x4000000000000000 ≤ p.toNat ∧ p.toNat < 0x7FF0000000000000

/-- The timer labels a one-shot can carry (41_sequencer.md R144). -/
abbrev legalDelay (c : Config) (us : Nat) : Prop := us = c.pollUs ∨ us = c.fastUs

/-- The pending request fits the rest of the state: a recurring one carries the period and waits for S0
(41_sequencer.md R141), a one-shot carries one of the two labels. -/
def State.schedSound (s : State) : Prop :=
  match s.sched with
  | .none => True
  | .once us => legalDelay s.cfg us
  | .recurring p => p = s.period ∧ s.pstate = 0#3

/-- Both published values are values of FMT (42_conversion.md R160). -/
def State.readingSound (s : State) : Prop :=
  match s.reading with
  | none => True
  | some r => s.cfg.fmt.holds r.1 = true ∧ s.cfg.fmt.holds r.2 = true

/-- What holds of a constructed block at every step boundary, whatever word comes next. -/
structure State.Sound (s : State) : Prop where
  /-- A RESET has run (70_reset_and_hazards.md R234). -/
  built : s.constructed = true
  /-- `pstate` is one of S0 to S5 (10_state.md R23). -/
  legal : s.pstate.toNat ≤ 5
  /-- Enabled exactly when a request is pending (41_sequencer.md R140). -/
  armed : s.enabled = s.sched.pending
  /-- The request fits (41_sequencer.md R141, R144). -/
  request : s.schedSound
  /-- The period is finite and at least 2.0 (10_state.md R25). -/
  periodLegal : legalPeriod s.period
  /-- The raw temperature is held exactly from S3 to S5 (10_state.md R20, R21). -/
  rawHeld : s.rawTemp.isSome = decide (3 ≤ s.pstate.toNat)
  /-- Between steps CLOCK is low (10_state.md R27). -/
  clockLow : s.clk = false
  /-- The Reading is a pair of FMT values (10_state.md R22). -/
  readingFits : s.readingSound

/-- DATA's mode at a step boundary, by sequencer position (40_bus.md R113): driven before a command, an input
after one. -/
def restingDir (pstate : BitVec 3) : Dir := if pstate = 0#3 ∨ pstate = 3#3 then .output else .input

/-- A stimulus of the block itself: a host word, a firing or a SENSOR line, and no word of the model's ports. -/
def Stimulus.ofBlock : Stimulus → Bool
  | .host _ _ => true
  | .fire => true
  | .sensor _ => true
  | .micro _ _ _ => false
  | .wire _ => false

/-- No word of the model's own ports is ever run: the ports are closed, as in the block (30_encoding.md R76), or none
is to come (log 5). -/
abbrev State.portsUnused (s : State) : Prop := s.ports = false ∨ s.agenda.all Stimulus.ofBlock = true

/-- What also holds of a block whose ports stay unused (log 5): DATA rests as its position says, high when driven. -/
structure State.BlockSound (s : State) : Prop where
  sound : s.Sound
  dir : s.ddir = restingDir s.pstate
  latch : s.dout = true
  quietPorts : s.portsUnused

/-- No agent drives the bus or the timer: the block is disabled (43_shell.md R182). -/
abbrev State.silent (s : State) : Prop := s.enabled = false ∧ s.sched = .none

/-- The next stimulus is a host word that arms the timer: RESET or INIT. -/
def State.armsNext (s : State) : Bool :=
  match s.agenda with
  | .host op _ :: _ => op == 0x01#8 || op == 0x02#8
  | _ => false

end Sys2Proof.Machine
end

