-- ==== Sys2Proof/Certificates/Slice0/Obligations.lean ====
section
/-! DEFINITION. The statements about the machine, from the spec's numbered rules. -/

open Sys2Proof Sys2Proof.Machine

/-! ### Encodings -/

/-- 30_encoding.md sections 1 to 4: no field of an encoding is dropped. The operands beside a micro word are
the model's choice (log 25). -/
def Obligations.DecodingInvertsEncoding : Prop :=
  ∀ i : Instr, decode (encode i) = .ok i

/-- 30_encoding.md sections 1 to 4: two words of one space never stand for one instruction. -/
def Obligations.DecodedWordsAreTheEncodersWords : Prop :=
  ∀ (r : Request) (i : Instr), decode r = .ok i →
    (encode i).space = r.space ∧ (encode i).word = r.word

/-- 30_encoding.md R84: every word of each space is one operation of the space or reserved, and which. -/
def Obligations.EveryWordIsOneOperationOrReserved : Prop :=
  (∀ (op : Byte) (x : FVal), if op.toNat ∈ [1, 2, 3, 4, 8, 9, 10]
      then ∃ i, decode (.host op x) = .ok i ∧ i.format = .host8
      else decode (.host op x) = .error (.reservedHostWord op)) ∧
  (∀ (u : BitVec 12) (t : FVal) (n : Count),
    if u.toNat / 256 = 3 ∨ (u.toNat / 256 ≤ 10 ∧ u.toNat % 256 = 0)
      then ∃ i, decode (.micro u t n) = .ok i ∧ i.format = .micro12
      else decode (.micro u t n) = .error (.reservedMicroOp u)) ∧
  (∀ code : BitVec 3, if code.toNat ≤ 5
      then ∃ i, decode (.tick code) = .ok i ∧ i.format = .tick
      else decode (.tick code) = .error (.invalidStateCode code))

/-- Words written out from 30_encoding.md R71, R74, R77 and R79. That CONV_HUM takes its operands from beside its word is
the model's choice (log 25). -/
def Obligations.WordsOfTheSpecDecodeAsTabled : Prop :=
  (∀ x : FVal, decode (.host 0b00000001#8 x) = .ok (.reset x)) ∧
  (∀ x : FVal, decode (.host 0b00001010#8 x) = .ok .lastBoth) ∧
  decode (.tick 0b101#3) = .ok .tickS5 ∧
  decode (.micro 0b001100000101#12 0#64 0#16) = .ok (.sendCommand 0b00000101#8) ∧
  (∀ (t : FVal) (n : Count), decode (.micro 0b101000000000#12 t n) = .ok (.convHum t n)) ∧
  decode (.wire 0b00000011#8) = .ok .measureT

/-! ### Steps -/

/-- 30_encoding.md section 1, 20_memory.md section 4: a host word that decodes runs its instruction.
The agenda is the model's choice (log 3). -/
def Obligations.StepRunsTheHostOperation : Prop :=
  ∀ (s : State) (op : Byte) (x : FVal) (rest : List Stimulus) (i : Instr),
    s.marked = false → s.constructed = true → s.agenda = .host op x :: rest →
    decode (.host op x) = .ok i → i.wellFormed s.cfg.fmt = true →
    step s = exec i { s with agenda := rest }

/-- 41_sequencer.md section 1: a firing consumes a one-shot, keeps a recurring request, and runs the tick the
position selects; with nothing pending the timer has no step. The agenda, and the firing with an empty one, are
the model's choice (log 3). -/
def Obligations.StepFiresTheTickOfThePosition : Prop :=
  (∀ (s : State) (rest : List Stimulus) (i : Instr),
    s.marked = false → s.timerReady = true → s.agenda = .fire :: rest → decode (.tick s.pstate) = .ok i →
    step s = exec i { s with agenda := rest, sched := s.sched.afterFiring }) ∧
  (∀ (s : State) (i : Instr),
    s.marked = false → s.timerReady = true → s.agenda = [] → s.script = false →
    decode (.tick s.pstate) = .ok i →
    step s = exec i { s with sched := s.sched.afterFiring }) ∧
  (∀ (s : State) (rest : List Stimulus),
    s.marked = false → s.timerReady = false → s.agenda = .fire :: rest →
    step s = .refused .noSchedule ∧ s.settle (step s) = s)

/-- The model's own ports, where they are open (log 5), and the SENSOR lines of 70_reset_and_hazards.md section 5. -/
def Obligations.StepTakesPortWordsAndSensorLines : Prop :=
  (∀ (s : State) (u : BitVec 12) (t : FVal) (n : Count) (rest : List Stimulus) (i : Instr),
    s.marked = false → s.constructed = true → s.ports = true → s.agenda = .micro u t n :: rest →
    decode (.micro u t n) = .ok i → i.wellFormed s.cfg.fmt = true →
    step s = exec i { s with agenda := rest }) ∧
  (∀ (s : State) (c : Byte) (rest : List Stimulus) (i : Instr),
    s.marked = false → s.constructed = true → s.ports = true → s.agenda = .wire c :: rest →
    decode (.wire c) = .ok i → i.wellFormed s.cfg.fmt = true →
    step s = exec i { s with agenda := rest }) ∧
  (∀ (s : State) (vs : List Bool) (rest : List Stimulus),
    s.marked = false → s.agenda = .sensor vs :: rest →
    step s = .next { s with agenda := rest, draws := s.draws ++ vs })

/-- 30_encoding.md R72: a reserved host word is refused, sets the mark and changes nothing else. -/
def Obligations.ReservedHostWordIsRefused : Prop :=
  ∀ (s : State) (op : Byte) (x : FVal) (rest : List Stimulus),
    (op.toNat = 0 ∨ (5 ≤ op.toNat ∧ op.toNat ≤ 7) ∨ 0x0B ≤ op.toNat) →
    s.marked = false → s.agenda = .host op x :: rest →
    step s = .refused (.reservedHostWord op) ∧ s.settle (step s) = { s with refused := true }

/-- 30_encoding.md section 3: a reserved micro word faults BadMicroOp. That a step meets one is the model's
port (log 5). -/
def Obligations.ReservedMicroWordFaults : Prop :=
  ∀ (s : State) (u : BitVec 12) (t : FVal) (n : Count) (rest : List Stimulus),
    (11 ≤ u.toNat / 256 ∨ (u.toNat / 256 ≠ 3 ∧ u.toNat % 256 ≠ 0)) →
    s.marked = false → s.ports = true → s.agenda = .micro u t n :: rest →
    step s = .fault .badMicroOp ∧ s.settle (step s) = { s with fault := some .badMicroOp }

/-- 41_sequencer.md sections 1 and 2: a tick at code 6 or 7 faults BadState, with no event and no request. That a firing
stands on the agenda, or comes by itself, is the model's choice (log 3). -/
def Obligations.InvalidStateCodeFaults : Prop :=
  (∀ (s : State) (rest : List Stimulus),
    6 ≤ s.pstate.toNat → s.marked = false → s.timerReady = true → s.agenda = .fire :: rest →
    step s = .fault .badState ∧ s.settle (step s) = { s with fault := some .badState }) ∧
  (∀ s : State,
    6 ≤ s.pstate.toNat → s.marked = false → s.timerReady = true → s.agenda = [] → s.script = false →
    step s = .fault .badState ∧ s.settle (step s) = { s with fault := some .badState })

/-- 70_reset_and_hazards.md R230: before construction only RESET has a meaning, whatever the unspecified
fields hold. -/
def Obligations.BeforeConstructionOnlyResetRuns : Prop :=
  (∀ s : State, s.unbuilt.fault = none ∧ s.unbuilt.refused = false ∧ s.unbuilt.timerReady = false) ∧
  (∀ (s : State) (x : FVal) (rest : List Stimulus),
    step { s.unbuilt with agenda := .host 0x01#8 x :: rest }
      = exec (.reset x) { s.unbuilt with agenda := rest }) ∧
  (∀ (s : State) (rest : List Stimulus),
    step { s.unbuilt with agenda := .fire :: rest } = .refused .noSchedule) ∧
  (∀ (s : State) (op : Byte) (x : FVal) (rest : List Stimulus), op ≠ 0x01#8 →
    ∃ r, step { s.unbuilt with agenda := .host op x :: rest } = .refused r ∧
      State.settle { s.unbuilt with agenda := .host op x :: rest } (.refused r)
        = { s.unbuilt with agenda := .host op x :: rest, refused := true })

/-- 60_exceptions.md section 1, 10_state.md section 6: once a mark is set no agent has a step, and the first
fault's kind stays. How an outcome leaves its mark is the model's choice (log 13). -/
def Obligations.MarkedBlockHasNoStep : Prop :=
  (∀ s : State, (s.fault ≠ none ∨ s.refused = true) →
    step s = .refused .halted ∧ s.settle (step s) = s) ∧
  (∀ (s : State) (k : Fault), s.fault = none → s.settle (.fault k) = { s with fault := some k }) ∧
  (∀ (s : State) (k k' : Fault), s.fault = some k → s.settle (.fault k') = s)

/-- 60_exceptions.md section 4 and 70_reset_and_hazards.md section 5: a block with no schedule and nothing to
come does not step, and a script ends; neither sets a mark. The agenda is the model's choice (log 3, log 4). -/
def Obligations.QuietBlockHasNoStep : Prop :=
  (∀ s : State, s.marked = false → s.agenda = [] → s.script = true →
    step s = .refused .scriptEnded ∧ s.settle (step s) = s) ∧
  (∀ s : State, s.marked = false → s.agenda = [] → s.script = false → s.timerReady = false →
    step s = .refused .quiescent ∧ s.settle (step s) = s)

/-! ### Bus primitives -/

/-- 40_bus.md R103. -/
def Obligations.PulseIsOneClockPulse : Prop :=
  (∀ (t : FVal) (n : Count), decode (.micro 0x000#12 t n) = .ok .pulse) ∧
  ∀ s : State, exec .pulse s = .next { s with clk := false, trace := s.trace ++ clockPulse }

/-- 40_bus.md section 2, START: the edge order is the spec's decision D9, from general knowledge (log 11). -/
def Obligations.StartDrivesTheStartCondition : Prop :=
  (∀ (t : FVal) (n : Count), decode (.micro 0x100#12 t n) = .ok .start) ∧
  ∀ s : State, exec .start s = .next { s with
    clk := false, ddir := .output, dout := true, trace := s.trace ++ startEvents }

/-- 40_bus.md R105. -/
def Obligations.SoftResetDrivesNinePulses : Prop :=
  (∀ (t : FVal) (n : Count), decode (.micro 0x200#12 t n) = .ok .softReset) ∧
  ∀ s : State, exec .softReset s = .next { s with
    clk := false, ddir := .output, dout := true, trace := s.trace ++ softResetEvents }

/-- 40_bus.md R106: any byte is sent, bit 7 first, and the one sample, the ACK, is discarded. -/
def Obligations.SendCommandShiftsOutTheByte : Prop :=
  (∀ (c : Byte) (t : FVal) (n : Count), decode (.micro (0x3#4 ++ c) t n) = .ok (.sendCommand c)) ∧
  ∀ (c : Byte) (s : State), s.canDraw 1 = true →
    exec (.sendCommand c) s = .next { s.pastDraws 1 with
      clk := false, ddir := .input, dout := c.getLsbD 0,
      trace := s.trace ++ sendCommandEvents c s.nextDraw }

/-- 40_bus.md section 2, RECEIVE_BYTE: the eight samples are the byte, most significant first. Where a
micro-operation run by itself leaves its value is the model's choice (log 14). -/
def Obligations.ReceiveByteAssemblesEightSamples : Prop :=
  ∀ s : State, s.canDraw 8 = true →
    exec .receiveByte s = .next { s.pastDraws 8 with
      clk := false, ddir := .input, trace := s.trace ++ receiveByteEvents (s.upcoming 8),
      microResult := some (.byte (BitVec.ofNat 8 (natOfBits (s.upcoming 8)))) }

/-- 40_bus.md R108. -/
def Obligations.AckByteDrivesLowThenReleases : Prop :=
  (∀ (t : FVal) (n : Count), decode (.micro 0x500#12 t n) = .ok .ackByte) ∧
  ∀ s : State, exec .ackByte s = .next { s with
    clk := false, ddir := .input, dout := false, trace := s.trace ++ ackByteEvents }

/-- 40_bus.md R109. -/
def Obligations.TerminateDrivesHigh : Prop :=
  (∀ (t : FVal) (n : Count), decode (.micro 0x600#12 t n) = .ok .terminate) ∧
  ∀ s : State, exec .terminate s = .next { s with
    clk := false, ddir := .output, dout := true, trace := s.trace ++ terminateEvents }

/-- 40_bus.md section 2, SAMPLE_READY: ready exactly when the sample is low; a fault unless DATA is an input.
Where the value is left is the model's choice (log 14). -/
def Obligations.SampleReadyIsOneSample : Prop :=
  (∀ s : State, s.ddir = .input → s.canDraw 1 = true →
    exec .sampleReady s = .next { s.pastDraws 1 with
      trace := s.trace ++ [.sample s.nextDraw], microResult := some (.flag (!s.nextDraw)) }) ∧
  (∀ s : State, s.ddir = .output → exec .sampleReady s = .fault .badLineMode)

/-- 40_bus.md section 2, RECEIVE_WORD: the sixteen samples are the count, most significant first. Where the
value is left is the model's choice (log 14). -/
def Obligations.ReceiveWordAssemblesSixteenSamples : Prop :=
  ∀ s : State, s.canDraw 16 = true →
    exec .receiveWord s = .next { s.pastDraws 16 with
      clk := false, ddir := .output, dout := true,
      trace := s.trace ++ receiveWordEvents (s.upcoming 16),
      microResult := some (.word (BitVec.ofNat 16 (natOfBits (s.upcoming 16)))) }

/-- 30_encoding.md sections 4 and 6: a wire command is the start condition and the command byte. The edge order of
START is the spec's general knowledge (log 11), and running a wire command by itself is the model's port (log 5). -/
def Obligations.MeasureSendsStartAndCommand : Prop :=
  ∀ s : State, s.canDraw 1 = true →
    exec .measureT s = .next { s.pastDraws 1 with
      clk := false, ddir := .input, dout := true,
      trace := s.trace ++ startEvents ++ sendCommandEvents 0x03#8 s.nextDraw } ∧
    exec .measureRh s = .next { s.pastDraws 1 with
      clk := false, ddir := .input, dout := true,
      trace := s.trace ++ startEvents ++ sendCommandEvents 0x05#8 s.nextDraw }

/-- 40_bus.md section 3: the value of a command's ACK changes nothing but the one sample of it in the trace. -/
def Obligations.AckValueSteersNothing : Prop :=
  ∀ (i : Instr) (s : State) (v v' : Bool) (vs : List Bool) (t t' : State),
    i ∈ [.tickS0, .tickS3, .measureT, .measureRh] ∨ (∃ c, i = .sendCommand c) →
    exec i { s with draws := v :: vs } = .next t → exec i { s with draws := v' :: vs } = .next t' →
    t' = { t with trace := t'.trace } ∧
    ∃ pre post, t.trace = pre ++ [.sample v] ++ post ∧ t'.trace = pre ++ [.sample v'] ++ post

/-! ### Ticks -/

/-- 41_sequencer.md section 2, TICK.S0. The edge order of START in its trace is the spec's general knowledge (log 11). -/
def Obligations.TickS0StartsTheTemperatureMeasurement : Prop :=
  decode (.tick 0b000#3) = .ok .tickS0 ∧
  ∀ s : State, s.canDraw 1 = true →
    exec .tickS0 s = .next { s.pastDraws 1 with
      pstate := 1#3, sched := .once s.cfg.pollUs, clk := false, ddir := .input, dout := true,
      trace := s.trace ++ startEvents ++ sendCommandEvents 0x03#8 s.nextDraw,
      timerLog := s.timerLog ++ [.schedOnce s.cfg.pollUs] }

/-- 41_sequencer.md R133: a low sample moves on, a high one stays; the tick of a block in S1 has DATA as an
input (40_bus.md section 3), and faults otherwise, as SAMPLE_READY does (40_bus.md R110). -/
def Obligations.TickS1PollsForTheTemperature : Prop :=
  decode (.tick 0b001#3) = .ok .tickS1 ∧
  (∀ s : State, s.ddir = .input → s.canDraw 1 = true →
    exec .tickS1 s = .next { s.pastDraws 1 with
      pstate := if s.nextDraw then 1#3 else 2#3,
      sched := .once (if s.nextDraw then s.cfg.pollUs else s.cfg.fastUs),
      trace := s.trace ++ [.sample s.nextDraw],
      timerLog := s.timerLog ++ [.schedOnce (if s.nextDraw then s.cfg.pollUs else s.cfg.fastUs)] }) ∧
  (∀ s : State, s.ddir = .output → exec .tickS1 s = .fault .badLineMode)

/-- 41_sequencer.md R134: every count is stored, none masked. -/
def Obligations.TickS2StoresTheRawTemperature : Prop :=
  decode (.tick 0b010#3) = .ok .tickS2 ∧
  ∀ s : State, s.canDraw 16 = true →
    exec .tickS2 s = .next { s.pastDraws 16 with
      pstate := 3#3, sched := .once s.cfg.fastUs,
      rawTemp := some (BitVec.ofNat 16 (natOfBits (s.upcoming 16))),
      clk := false, ddir := .output, dout := true,
      trace := s.trace ++ receiveWordEvents (s.upcoming 16),
      timerLog := s.timerLog ++ [.schedOnce s.cfg.fastUs] }

/-- 41_sequencer.md section 2, TICK.S3. The edge order of START in its trace is the spec's general knowledge (log 11). -/
def Obligations.TickS3StartsTheHumidityMeasurement : Prop :=
  decode (.tick 0b011#3) = .ok .tickS3 ∧
  ∀ s : State, s.canDraw 1 = true →
    exec .tickS3 s = .next { s.pastDraws 1 with
      pstate := 4#3, sched := .once s.cfg.pollUs, clk := false, ddir := .input, dout := true,
      trace := s.trace ++ startEvents ++ sendCommandEvents 0x05#8 s.nextDraw,
      timerLog := s.timerLog ++ [.schedOnce s.cfg.pollUs] }

/-- 41_sequencer.md R136, as R133, with the fault of SAMPLE_READY (40_bus.md R110). -/
def Obligations.TickS4PollsForTheHumidity : Prop :=
  decode (.tick 0b100#3) = .ok .tickS4 ∧
  (∀ s : State, s.ddir = .input → s.canDraw 1 = true →
    exec .tickS4 s = .next { s.pastDraws 1 with
      pstate := if s.nextDraw then 4#3 else 5#3,
      sched := .once (if s.nextDraw then s.cfg.pollUs else s.cfg.fastUs),
      trace := s.trace ++ [.sample s.nextDraw],
      timerLog := s.timerLog ++ [.schedOnce (if s.nextDraw then s.cfg.pollUs else s.cfg.fastUs)] }) ∧
  (∀ s : State, s.ddir = .output → exec .tickS4 s = .fault .badLineMode)

/-- 41_sequencer.md R137: the pair of one cycle is published in one write; without a raw temperature the tick
faults. -/
def Obligations.TickS5PublishesTheReading : Prop :=
  decode (.tick 0b101#3) = .ok .tickS5 ∧
  (∀ (s : State) (r : Count), s.rawTemp = some r → s.canDraw 16 = true →
    exec .tickS5 s = .next { s.pastDraws 16 with
      pstate := 0#3, sched := .recurring s.period, rawTemp := none,
      reading := some (convTemp s.cfg.fmt r,
        convHum s.cfg.fmt s.cfg.sqOrder (convTemp s.cfg.fmt r) (BitVec.ofNat 16 (natOfBits (s.upcoming 16)))),
      clk := false, ddir := .output, dout := true,
      trace := s.trace ++ receiveWordEvents (s.upcoming 16),
      timerLog := s.timerLog ++ [.schedRec s.period] }) ∧
  (∀ s : State, s.rawTemp = none → exec .tickS5 s = .fault .rawTempUnwritten)

/-- 70_reset_and_hazards.md section 5: in a script, a tick whose draws the SENSOR queue cannot give does not take
place. The outcome's form is the model's choice (log 4). -/
def Obligations.TickWithoutDrawsIsStuck : Prop :=
  (∀ s : State, s.canDraw 1 = false →
    exec .tickS0 s = .refused .noDraw ∧ exec .tickS3 s = .refused .noDraw ∧
    (s.ddir = .input → exec .tickS1 s = .refused .noDraw ∧ exec .tickS4 s = .refused .noDraw)) ∧
  (∀ s : State, s.canDraw 16 = false →
    exec .tickS2 s = .refused .noDraw ∧
    (s.rawTemp ≠ none → exec .tickS5 s = .refused .noDraw)) ∧
  (∀ s : State, s.settle (.refused .noDraw) = s)

/-- 41_sequencer.md section 4: from S0, six firings with both polls ready are a full cycle, whatever the sensor
sends: 336 events, the six requests in order, and the Reading of the two counts. The queue of draws and the
agenda are the model's (log 1, log 3). -/
def Obligations.SixTicksPublishAReading : Prop :=
  ∀ (s : State) (ack₁ ack₂ : Bool) (ts hs vs : List Bool) (rest : List Stimulus),
    s.marked = false → s.constructed = true → s.pstate = 0#3 → s.sched ≠ .none →
    ts.length = 16 → hs.length = 16 →
    s.draws = ack₁ :: false :: ts ++ ack₂ :: false :: hs ++ vs →
    s.agenda = List.replicate 6 .fire ++ rest →
    ∃ t, core.run 6 s = .next t ∧
      t.pstate = 0#3 ∧ t.sched = .recurring s.period ∧ t.rawTemp = none ∧
      t.reading = some (convTemp s.cfg.fmt (BitVec.ofNat 16 (natOfBits ts)),
        convHum s.cfg.fmt s.cfg.sqOrder (convTemp s.cfg.fmt (BitVec.ofNat 16 (natOfBits ts)))
          (BitVec.ofNat 16 (natOfBits hs))) ∧
      t.trace.length = s.trace.length + 336 ∧
      t.timerLog = s.timerLog ++ [.schedOnce s.cfg.pollUs, .schedOnce s.cfg.fastUs, .schedOnce s.cfg.fastUs,
        .schedOnce s.cfg.pollUs, .schedOnce s.cfg.fastUs, .schedRec s.period] ∧
      t.agenda = rest ∧ t.draws = vs

/-- 41_sequencer.md section 4: there is no timeout. However often the sensor keeps DATA high, a poll keeps its
position and changes no Reading, each poll being one more event and one more request. -/
def Obligations.PollingNeverTimesOut : Prop :=
  ∀ (n : Nat) (s : State) (vs : List Bool) (rest : List Stimulus),
    s.marked = false → s.constructed = true → (s.pstate = 1#3 ∨ s.pstate = 4#3) → s.sched ≠ .none →
    s.ddir = .input → s.draws = List.replicate n true ++ vs → s.agenda = List.replicate n .fire ++ rest →
    ∃ t, core.run n s = .next t ∧
      t.pstate = s.pstate ∧ t.reading = s.reading ∧ t.rawTemp = s.rawTemp ∧
      t.trace = s.trace ++ List.replicate n (.sample true) ∧
      t.timerLog = s.timerLog ++ List.replicate n (.schedOnce s.cfg.pollUs) ∧
      t.sched ≠ .none ∧ t.agenda = rest ∧ t.draws = vs

/-! ### Conversion -/

/-- 42_conversion.md section 2, CONV_TEMP, with the values of its corner cases in binary64. Where the value is left
is the model's choice (log 14). -/
def Obligations.ConvTempFollowsItsFormula : Prop :=
  (∀ (r : Count) (s : State),
    exec (.convTemp r) s = .next { s with microResult := some (.num
      (flSub s.cfg.fmt (flMul s.cfg.fmt (toF s.cfg.fmt r.toNat) (kT1 s.cfg.fmt)) (kT0 s.cfg.fmt))) }) ∧
  convTemp .binary64 0#16 = 0xC044000000000000#64 ∧
  convTemp .binary64 4000#16 = 0x0000000000000000#64 ∧
  convTemp .binary64 4001#16 = 0x3F847AE147AE1000#64 ∧
  convTemp .binary64 6500#16 = 0x4039000000000000#64 ∧
  convTemp .binary64 65535#16 = 0x40833ACCCCCCCCCD#64

/-- 42_conversion.md section 2, CONV_TEMP: non-decreasing in the count. The spec checks it in binary64; that it
also holds in binary32 is an inference of the model. -/
def Obligations.ConvTempIsNonDecreasing : Prop :=
  ∀ (f : Fmt) (r r' : Count), r.toNat ≤ r'.toNat → unitsOf f (convTemp f r) ≤ unitsOf f (convTemp f r')

/-- 42_conversion.md section 3, R169, an inference of the spec (its `[derived]` mark): CONV_TEMP is finite and lies in
[−40.0, 615.35] in binary64. -/
def Obligations.ConvTempStaysInRange : Prop :=
  ∀ r : Count, isFiniteNum .binary64 (convTemp .binary64 r) = true ∧
    unitsOf .binary64 0xC044000000000000#64 ≤ unitsOf .binary64 (convTemp .binary64 r) ∧
    unitsOf .binary64 (convTemp .binary64 r) ≤ unitsOf .binary64 0x40833ACCCCCCCCCD#64

/-- 42_conversion.md section 2, CONV_HUM and its square term under both groupings, with the source's worked example.
Where the value is left is the model's choice (log 14). -/
def Obligations.ConvHumFollowsItsFormula : Prop :=
  (∀ (t : FVal) (h : Count) (s : State),
    exec (.convHum t h) s = .next { s with microResult := some (.num
      (let f := s.cfg.fmt
       let hF := toF f h.toNat
       let d := flMul f (flSub f t (kRef f)) (flAdd f (kT1 f) (flMul f (kH2 f) hF))
       let g := flAdd f (flSub f d (kH0 f)) (flMul f (kH1 f) hF)
       let q := match s.cfg.sqOrder with
         | .productFirst => flMul f (kHq f) (flMul f hF hF)
         | .coefFirst => flMul f (flMul f (kHq f) hF) hF
       flSub f g q)) }) ∧
  convHum .binary64 .productFirst 0x4039000000000000#64 5000#16 = 0x4060100000000000#64 ∧
  convHum .binary64 .coefFirst 0x4039000000000000#64 5000#16 = 0x4060100000000000#64 ∧
  convHum .binary64 .productFirst 0x4039000000000000#64 65535#16 = 0xC0C24FAFDCF0307F#64

/-- 00_scope.md section 4, `fl(x + y)` and `fl(x − y)`: rounded to nearest, ties to even, wherever the result is
finite. The rounding is the spec's general knowledge (log 10). -/
def Obligations.SumsAreRoundedToNearestEven : Prop :=
  ∀ (f : Fmt) (x y : FVal), isFiniteNum f x = true → isFiniteNum f y = true →
    (isFiniteNum f (flAdd f x y) = true → roundedFrom f (unitsOf f x + unitsOf f y) 1 (flAdd f x y)) ∧
    (isFiniteNum f (flSub f x y) = true → roundedFrom f (unitsOf f x - unitsOf f y) 1 (flSub f x y))

/-- 00_scope.md section 4, `fl(x × y)`: rounded to nearest, ties to even, wherever the result is finite (log 10). -/
def Obligations.ProductsAreRoundedToNearestEven : Prop :=
  ∀ (f : Fmt) (x y : FVal), isFiniteNum f x = true → isFiniteNum f y = true →
    isFiniteNum f (flMul f x y) = true →
    roundedFrom f (unitsOf f x * unitsOf f y) (2 ^ scale f) (flMul f x y)

/-- 42_conversion.md R166: conversions of counts, and in binary64 of their squares, are exact. -/
def Obligations.CountsConvertExactly : Prop :=
  (∀ (f : Fmt) (n : Nat), n ≤ 65535 →
    isFiniteNum f (toF f n) = true ∧ unitsOf f (toF f n) = n * 2 ^ scale f) ∧
  (∀ h : Nat, h ≤ 65535 →
    isFiniteNum .binary64 (toF .binary64 (h * h)) = true ∧
    unitsOf .binary64 (toF .binary64 (h * h)) = h * h * 2 ^ scale .binary64)

/-- 42_conversion.md section 1: each constant is its decimal literal rounded once. -/
def Obligations.ConstantsAreTheNearestValues : Prop :=
  ∀ f : Fmt, nearestTo f 1 100 (kT1 f) ∧ nearestTo f 40 1 (kT0 f) ∧ nearestTo f 25 1 (kRef f) ∧
    nearestTo f 8 100000 (kH2 f) ∧ nearestTo f 4 1 (kH0 f) ∧ nearestTo f 405 10000 (kH1 f) ∧
    nearestTo f 28 10000000 (kHq f)

/-! ### Host operations -/

/-- 43_shell.md R184: NaN and plus infinity fault, everything else below 2.0 becomes 2.0, and the rest stays
bit for bit. -/
def Obligations.PeriodIsClampedToTwoSeconds : Prop :=
  (∀ (c : Config) (x : FVal), isNaNNum .binary64 x = true ∨ x = 0x7FF0000000000000#64 → clamp c x = none) ∧
  (∀ (s : State) (x : FVal), isNaNNum .binary64 x = true ∨ x = 0x7FF0000000000000#64 →
    exec (.reset x) s = .fault .badPeriod ∧ exec (.setCyclePeriod x) s = .fault .badPeriod) ∧
  (∀ c : Config, clamp c 0xFFF0000000000000#64 = some 0x4000000000000000#64) ∧
  (∀ (c : Config) (x : FVal), isFiniteNum .binary64 x = true →
    clamp c x = if unitsOf .binary64 x < unitsOf .binary64 0x4000000000000000#64
      then some 0x4000000000000000#64 else some x) ∧
  (∀ (c : Config) (x p : FVal), clamp c x = some p → legalPeriod p)

/-- 70_reset_and_hazards.md R231: RESET rebuilds the block, armed or not, and leaves the marks; an operand that
CLAMP refuses faults. -/
def Obligations.ResetRebuildsTheBlock : Prop :=
  (∀ x : FVal, decode (.host 0x01#8 x) = .ok (.reset x)) ∧
  (∀ (s : State) (x p : FVal), clamp s.cfg x = some p →
    exec (.reset x) s = .next { s with
      pstate := 0#3, enabled := s.cfg.armAtConstruction,
      sched := if s.cfg.armAtConstruction then .recurring p else .none,
      period := p, rawTemp := none, reading := none, clk := false, ddir := .output, dout := true,
      constructed := true,
      trace := s.trace ++ softResetEvents,
      timerLog := s.timerLog ++ if s.cfg.armAtConstruction then [.schedRec p] else [] }) ∧
  (∀ (s : State) (x : FVal), clamp s.cfg x = none → exec (.reset x) s = .fault .badPeriod)

/-- 43_shell.md R181, with REARM (R180): from any state, and `period` and `reading` stay. -/
def Obligations.InitRearms : Prop :=
  (∀ x : FVal, decode (.host 0x02#8 x) = .ok .init) ∧
  ∀ s : State, exec .init s = .next { s with
    pstate := 0#3, enabled := true, sched := .recurring s.period, rawTemp := none,
    clk := false, ddir := .output, dout := true,
    trace := s.trace ++ softResetEvents, timerLog := s.timerLog ++ [.schedRec s.period] }

/-- 43_shell.md R182: only the schedule and `enabled` change, and the timer then has no step. -/
def Obligations.DisableCancelsTheSchedule : Prop :=
  (∀ x : FVal, decode (.host 0x03#8 x) = .ok .disable) ∧
  ∀ s : State, ∃ t, exec .disable s = .next t ∧
    t = { s with sched := .none, enabled := false, timerLog := s.timerLog ++ [.cancel] } ∧
    t.timerReady = false

/-- 43_shell.md R183: while enabled the block is torn down and re-armed, while disabled only the period changes. -/
def Obligations.SetCyclePeriodRearmsOnlyWhileEnabled : Prop :=
  (∀ x : FVal, decode (.host 0x04#8 x) = .ok (.setCyclePeriod x)) ∧
  (∀ (s : State) (x p : FVal), clamp s.cfg x = some p → s.enabled = true →
    exec (.setCyclePeriod x) s = .next { s with
      pstate := 0#3, enabled := true, sched := .recurring p, period := p, rawTemp := none,
      clk := false, ddir := .output, dout := true,
      trace := s.trace ++ softResetEvents,
      timerLog := s.timerLog ++ [.cancel, .schedRec p] }) ∧
  (∀ (s : State) (x p : FVal), clamp s.cfg x = some p → s.enabled = false →
    exec (.setCyclePeriod x) s = .next { s with period := p }) ∧
  (∀ (s : State) (x : FVal), clamp s.cfg x = none → exec (.setCyclePeriod x) s = .fault .badPeriod)

/-- 43_shell.md R185, R186 and R187: the accessors return the published values and change nothing; before the first
publication they fault. -/
def Obligations.AccessorsReturnThePublishedReading : Prop :=
  (∀ x : FVal, decode (.host 0x08#8 x) = .ok .lastTemperature ∧ decode (.host 0x09#8 x) = .ok .lastHumidity ∧
    decode (.host 0x0A#8 x) = .ok .lastBoth) ∧
  (∀ (s : State) (t h : FVal), s.reading = some (t, h) →
    exec .lastTemperature s = .next { s with returns := s.returns ++ [.num t] } ∧
    exec .lastHumidity s = .next { s with returns := s.returns ++ [.num h] } ∧
    exec .lastBoth s = .next { s with returns := s.returns ++ [.pair t h] }) ∧
  (∀ s : State, s.reading = none →
    exec .lastTemperature s = .fault .readingUnwritten ∧ exec .lastHumidity s = .fault .readingUnwritten ∧
    exec .lastBoth s = .fault .readingUnwritten)

/-! ### The whole machine -/

/-- 10_state.md section 2: who writes the data registers. -/
def Obligations.OnlyTheirRulesWriteTheDataRegisters : Prop :=
  ∀ (i : Instr) (s t : State), exec i s = .next t →
    (i ≠ .tickS5 → (∀ x, i ≠ .reset x) → t.reading = s.reading) ∧
    (i ≠ .tickS2 → i ≠ .tickS5 → i ≠ .init → (∀ x, i ≠ .reset x) → (∀ x, i ≠ .setCyclePeriod x) →
      t.rawTemp = s.rawTemp)

/-- 10_state.md sections 3 to 5: who writes the position and the control fields. -/
def Obligations.OnlyTheirRulesWriteTheControlFields : Prop :=
  ∀ (i : Instr) (s t : State), exec i s = .next t →
    (i ≠ .init → i ≠ .disable → (∀ x, i ≠ .reset x) → t.enabled = s.enabled) ∧
    ((∀ x, i ≠ .reset x) → (∀ x, i ≠ .setCyclePeriod x) → t.period = s.period) ∧
    (i.format ≠ .tick → i ≠ .init → i ≠ .disable → (∀ x, i ≠ .reset x) → (∀ x, i ≠ .setCyclePeriod x) →
      t.sched = s.sched ∧ t.timerLog = s.timerLog) ∧
    (i.format ≠ .tick → i ≠ .init → (∀ x, i ≠ .reset x) → (∀ x, i ≠ .setCyclePeriod x) →
      t.pstate = s.pstate)

/-- 10_state.md section 6: a completed instruction writes neither mark; nor the model's agenda, script flag, ports
and parameters (log 3, log 4, log 5, log 7). -/
def Obligations.CompletedInstructionsLeaveTheMarks : Prop :=
  ∀ (i : Instr) (s t : State), exec i s = .next t →
    t.fault = s.fault ∧ t.refused = s.refused ∧ t.agenda = s.agenda ∧ t.script = s.script ∧ t.ports = s.ports ∧
    t.cfg = s.cfg

/-- 41_sequencer.md section 4 and 10_state.md: the invariant of a constructed block, over every step. That it is kept is the
spec's own inference (its `[derived]` marks), and the Reading's patterns are the model's (log 8). -/
def Obligations.EveryStepKeepsASoundState : Prop :=
  ∀ s t : State, s.Sound → step s = .next t → t.Sound

/-- The state after reset is sound, whatever comes next (70_reset_and_hazards.md section 2; log 2, log 5, log 7). -/
def Obligations.ResetStateIsSound : Prop :=
  ∀ agenda : List Stimulus, State.Sound { State.reset with agenda := agenda } ∧
    State.BlockSound { State.reset with agenda := agenda }

/-- 70_reset_and_hazards.md section 2: RESET makes any state sound. -/
def Obligations.ResetMakesAnyStateSound : Prop :=
  ∀ (s t : State) (x : FVal), exec (.reset x) s = .next t →
    t.Sound ∧ (s.portsUnused → t.BlockSound)

/-- 40_bus.md section 3, an inference of the spec: while the model's ports stay unused (log 5), DATA rests as the position
says at every step boundary. -/
def Obligations.EveryStepKeepsABlockSoundState : Prop :=
  ∀ s t : State, s.BlockSound → step s = .next t → t.BlockSound

/-- 60_exceptions.md section 1: no step of a sound block whose ports stay unused (log 5) raises one of the four faults
the spec calls unreachable. -/
def Obligations.UnreachableFaultsNeverArise : Prop :=
  ∀ (s : State) (k : Fault), s.BlockSound → step s = .fault k → k = .badPeriod ∨ k = .readingUnwritten

/-- 43_shell.md section 2: a disabled block stays disabled, with no bus event, until INIT or RESET. -/
def Obligations.DisabledBlockStaysSilent : Prop :=
  ∀ s t : State, s.silent → s.portsUnused → s.armsNext = false → step s = .next t →
    t.silent ∧ t.trace = s.trace ∧ t.reading = s.reading

/-- 10_state.md section 6: while the block is disabled, `pstate` and `rawTemp` have no effect on what follows: two
blocks that differ only there step alike, and are equal once enabled again. -/
def Obligations.DisabledPositionHasNoEffect : Prop :=
  ∀ (s : State) (c : BitVec 3) (r : Option Count), s.silent → s.portsUnused →
    match step s, step { s with pstate := c, rawTemp := r } with
    | .next t, .next t' => t' = { t with pstate := t'.pstate, rawTemp := t'.rawTemp } ∧
        (t.enabled = true → t' = t)
    | .fault k, .fault k' => k' = k
    | .refused a, .refused a' => a' = a
    | _, _ => False

/-- 30_encoding.md section 3, no agent outside the block can issue a micro-operation: while the ports are closed, as they
are at reset, a micro or wire word on the agenda has no step and leaves no mark. The ports are the model's own (log 5). -/
def Obligations.NoAgentOutsideIssuesAMicroOperation : Prop :=
  State.reset.ports = false ∧
  (∀ (s : State) (u : BitVec 12) (t : FVal) (n : Count) (rest : List Stimulus),
    s.marked = false → s.ports = false → s.agenda = .micro u t n :: rest →
    step s = .refused .portClosed ∧ s.settle (step s) = s) ∧
  (∀ (s : State) (c : Byte) (rest : List Stimulus),
    s.marked = false → s.ports = false → s.agenda = .wire c :: rest →
    step s = .refused .portClosed ∧ s.settle (step s) = s) ∧
  (∀ s t : State, step s = .next t → t.ports = s.ports)
end

