-- ==== Sys2Proof/Laws/Config.lean ====
section
/-! SUPPORT. The value of each parameter the source fixes (00_scope.md R6). -/

namespace Sys2Proof

@[simp] theorem Config.minPeriod_eq (c : Config) : c.minPeriod = 0x4000000000000000#64 := c.fixedBySource.1

@[simp] theorem Config.cmdTemp_eq (c : Config) : c.cmdTemp = 0x03#8 := c.fixedBySource.2.1

@[simp] theorem Config.cmdHum_eq (c : Config) : c.cmdHum = 0x05#8 := c.fixedBySource.2.2.1

@[simp] theorem Config.resetPulses_eq (c : Config) : c.resetPulses = 9 := c.fixedBySource.2.2.2.1

@[simp] theorem Config.rawBits_eq (c : Config) : c.rawBits = 16 := c.fixedBySource.2.2.2.2.1

@[simp] theorem Config.cmdBits_eq (c : Config) : c.cmdBits = 8 := c.fixedBySource.2.2.2.2.2

end Sys2Proof
end

