-- ==== Sys2Proof/Laws/State.lean ====
section
/-! SUPPORT. What each update of the state leaves in each field: one lemma per update and field. -/

namespace Sys2Proof.Machine

/-! ### `State.emit` -/

@[simp] theorem State.emit_pstate (s : State) (e : BusEvent) : (s.emit e).pstate = s.pstate := rfl
@[simp] theorem State.emit_enabled (s : State) (e : BusEvent) : (s.emit e).enabled = s.enabled := rfl
@[simp] theorem State.emit_sched (s : State) (e : BusEvent) : (s.emit e).sched = s.sched := rfl
@[simp] theorem State.emit_period (s : State) (e : BusEvent) : (s.emit e).period = s.period := rfl
@[simp] theorem State.emit_rawTemp (s : State) (e : BusEvent) : (s.emit e).rawTemp = s.rawTemp := rfl
@[simp] theorem State.emit_reading (s : State) (e : BusEvent) : (s.emit e).reading = s.reading := rfl
@[simp] theorem State.emit_clk (s : State) (e : BusEvent) : (s.emit e).clk = s.clk := rfl
@[simp] theorem State.emit_ddir (s : State) (e : BusEvent) : (s.emit e).ddir = s.ddir := rfl
@[simp] theorem State.emit_dout (s : State) (e : BusEvent) : (s.emit e).dout = s.dout := rfl
@[simp] theorem State.emit_fault (s : State) (e : BusEvent) : (s.emit e).fault = s.fault := rfl
@[simp] theorem State.emit_refused (s : State) (e : BusEvent) : (s.emit e).refused = s.refused := rfl
@[simp] theorem State.emit_trace (s : State) (e : BusEvent) : (s.emit e).trace = s.trace ++ [e] := rfl
@[simp] theorem State.emit_timerLog (s : State) (e : BusEvent) : (s.emit e).timerLog = s.timerLog := rfl
@[simp] theorem State.emit_returns (s : State) (e : BusEvent) : (s.emit e).returns = s.returns := rfl
@[simp] theorem State.emit_microResult (s : State) (e : BusEvent) : (s.emit e).microResult = s.microResult := rfl
@[simp] theorem State.emit_constructed (s : State) (e : BusEvent) : (s.emit e).constructed = s.constructed := rfl
@[simp] theorem State.emit_agenda (s : State) (e : BusEvent) : (s.emit e).agenda = s.agenda := rfl
@[simp] theorem State.emit_draws (s : State) (e : BusEvent) : (s.emit e).draws = s.draws := rfl
@[simp] theorem State.emit_drawCount (s : State) (e : BusEvent) : (s.emit e).drawCount = s.drawCount := rfl
@[simp] theorem State.emit_script (s : State) (e : BusEvent) : (s.emit e).script = s.script := rfl
@[simp] theorem State.emit_ports (s : State) (e : BusEvent) : (s.emit e).ports = s.ports := rfl
@[simp] theorem State.emit_cfg (s : State) (e : BusEvent) : (s.emit e).cfg = s.cfg := rfl

/-! ### `State.schedOnce` -/

@[simp] theorem State.schedOnce_pstate (s : State) (us : Nat) : (s.schedOnce us).pstate = s.pstate := rfl
@[simp] theorem State.schedOnce_enabled (s : State) (us : Nat) : (s.schedOnce us).enabled = s.enabled := rfl
@[simp] theorem State.schedOnce_sched (s : State) (us : Nat) : (s.schedOnce us).sched = .once us := rfl
@[simp] theorem State.schedOnce_period (s : State) (us : Nat) : (s.schedOnce us).period = s.period := rfl
@[simp] theorem State.schedOnce_rawTemp (s : State) (us : Nat) : (s.schedOnce us).rawTemp = s.rawTemp := rfl
@[simp] theorem State.schedOnce_reading (s : State) (us : Nat) : (s.schedOnce us).reading = s.reading := rfl
@[simp] theorem State.schedOnce_clk (s : State) (us : Nat) : (s.schedOnce us).clk = s.clk := rfl
@[simp] theorem State.schedOnce_ddir (s : State) (us : Nat) : (s.schedOnce us).ddir = s.ddir := rfl
@[simp] theorem State.schedOnce_dout (s : State) (us : Nat) : (s.schedOnce us).dout = s.dout := rfl
@[simp] theorem State.schedOnce_fault (s : State) (us : Nat) : (s.schedOnce us).fault = s.fault := rfl
@[simp] theorem State.schedOnce_refused (s : State) (us : Nat) : (s.schedOnce us).refused = s.refused := rfl
@[simp] theorem State.schedOnce_trace (s : State) (us : Nat) : (s.schedOnce us).trace = s.trace := rfl
@[simp] theorem State.schedOnce_timerLog (s : State) (us : Nat) : (s.schedOnce us).timerLog = s.timerLog ++ [.schedOnce us] := rfl
@[simp] theorem State.schedOnce_returns (s : State) (us : Nat) : (s.schedOnce us).returns = s.returns := rfl
@[simp] theorem State.schedOnce_microResult (s : State) (us : Nat) : (s.schedOnce us).microResult = s.microResult := rfl
@[simp] theorem State.schedOnce_constructed (s : State) (us : Nat) : (s.schedOnce us).constructed = s.constructed := rfl
@[simp] theorem State.schedOnce_agenda (s : State) (us : Nat) : (s.schedOnce us).agenda = s.agenda := rfl
@[simp] theorem State.schedOnce_draws (s : State) (us : Nat) : (s.schedOnce us).draws = s.draws := rfl
@[simp] theorem State.schedOnce_drawCount (s : State) (us : Nat) : (s.schedOnce us).drawCount = s.drawCount := rfl
@[simp] theorem State.schedOnce_script (s : State) (us : Nat) : (s.schedOnce us).script = s.script := rfl
@[simp] theorem State.schedOnce_ports (s : State) (us : Nat) : (s.schedOnce us).ports = s.ports := rfl
@[simp] theorem State.schedOnce_cfg (s : State) (us : Nat) : (s.schedOnce us).cfg = s.cfg := rfl

/-! ### `State.schedRec` -/

@[simp] theorem State.schedRec_pstate (s : State) (p : FVal) : (s.schedRec p).pstate = s.pstate := rfl
@[simp] theorem State.schedRec_enabled (s : State) (p : FVal) : (s.schedRec p).enabled = s.enabled := rfl
@[simp] theorem State.schedRec_sched (s : State) (p : FVal) : (s.schedRec p).sched = .recurring p := rfl
@[simp] theorem State.schedRec_period (s : State) (p : FVal) : (s.schedRec p).period = s.period := rfl
@[simp] theorem State.schedRec_rawTemp (s : State) (p : FVal) : (s.schedRec p).rawTemp = s.rawTemp := rfl
@[simp] theorem State.schedRec_reading (s : State) (p : FVal) : (s.schedRec p).reading = s.reading := rfl
@[simp] theorem State.schedRec_clk (s : State) (p : FVal) : (s.schedRec p).clk = s.clk := rfl
@[simp] theorem State.schedRec_ddir (s : State) (p : FVal) : (s.schedRec p).ddir = s.ddir := rfl
@[simp] theorem State.schedRec_dout (s : State) (p : FVal) : (s.schedRec p).dout = s.dout := rfl
@[simp] theorem State.schedRec_fault (s : State) (p : FVal) : (s.schedRec p).fault = s.fault := rfl
@[simp] theorem State.schedRec_refused (s : State) (p : FVal) : (s.schedRec p).refused = s.refused := rfl
@[simp] theorem State.schedRec_trace (s : State) (p : FVal) : (s.schedRec p).trace = s.trace := rfl
@[simp] theorem State.schedRec_timerLog (s : State) (p : FVal) : (s.schedRec p).timerLog = s.timerLog ++ [.schedRec p] := rfl
@[simp] theorem State.schedRec_returns (s : State) (p : FVal) : (s.schedRec p).returns = s.returns := rfl
@[simp] theorem State.schedRec_microResult (s : State) (p : FVal) : (s.schedRec p).microResult = s.microResult := rfl
@[simp] theorem State.schedRec_constructed (s : State) (p : FVal) : (s.schedRec p).constructed = s.constructed := rfl
@[simp] theorem State.schedRec_agenda (s : State) (p : FVal) : (s.schedRec p).agenda = s.agenda := rfl
@[simp] theorem State.schedRec_draws (s : State) (p : FVal) : (s.schedRec p).draws = s.draws := rfl
@[simp] theorem State.schedRec_drawCount (s : State) (p : FVal) : (s.schedRec p).drawCount = s.drawCount := rfl
@[simp] theorem State.schedRec_script (s : State) (p : FVal) : (s.schedRec p).script = s.script := rfl
@[simp] theorem State.schedRec_ports (s : State) (p : FVal) : (s.schedRec p).ports = s.ports := rfl
@[simp] theorem State.schedRec_cfg (s : State) (p : FVal) : (s.schedRec p).cfg = s.cfg := rfl

/-! ### `State.cancel` -/

@[simp] theorem State.cancel_pstate (s : State) : (s.cancel).pstate = s.pstate := rfl
@[simp] theorem State.cancel_enabled (s : State) : (s.cancel).enabled = s.enabled := rfl
@[simp] theorem State.cancel_sched (s : State) : (s.cancel).sched = .none := rfl
@[simp] theorem State.cancel_period (s : State) : (s.cancel).period = s.period := rfl
@[simp] theorem State.cancel_rawTemp (s : State) : (s.cancel).rawTemp = s.rawTemp := rfl
@[simp] theorem State.cancel_reading (s : State) : (s.cancel).reading = s.reading := rfl
@[simp] theorem State.cancel_clk (s : State) : (s.cancel).clk = s.clk := rfl
@[simp] theorem State.cancel_ddir (s : State) : (s.cancel).ddir = s.ddir := rfl
@[simp] theorem State.cancel_dout (s : State) : (s.cancel).dout = s.dout := rfl
@[simp] theorem State.cancel_fault (s : State) : (s.cancel).fault = s.fault := rfl
@[simp] theorem State.cancel_refused (s : State) : (s.cancel).refused = s.refused := rfl
@[simp] theorem State.cancel_trace (s : State) : (s.cancel).trace = s.trace := rfl
@[simp] theorem State.cancel_timerLog (s : State) : (s.cancel).timerLog = s.timerLog ++ [.cancel] := rfl
@[simp] theorem State.cancel_returns (s : State) : (s.cancel).returns = s.returns := rfl
@[simp] theorem State.cancel_microResult (s : State) : (s.cancel).microResult = s.microResult := rfl
@[simp] theorem State.cancel_constructed (s : State) : (s.cancel).constructed = s.constructed := rfl
@[simp] theorem State.cancel_agenda (s : State) : (s.cancel).agenda = s.agenda := rfl
@[simp] theorem State.cancel_draws (s : State) : (s.cancel).draws = s.draws := rfl
@[simp] theorem State.cancel_drawCount (s : State) : (s.cancel).drawCount = s.drawCount := rfl
@[simp] theorem State.cancel_script (s : State) : (s.cancel).script = s.script := rfl
@[simp] theorem State.cancel_ports (s : State) : (s.cancel).ports = s.ports := rfl
@[simp] theorem State.cancel_cfg (s : State) : (s.cancel).cfg = s.cfg := rfl

/-! ### `State.enable` -/

@[simp] theorem State.enable_pstate (s : State) : (s.enable).pstate = s.pstate := rfl
@[simp] theorem State.enable_enabled (s : State) : (s.enable).enabled = true := rfl
@[simp] theorem State.enable_sched (s : State) : (s.enable).sched = s.sched := rfl
@[simp] theorem State.enable_period (s : State) : (s.enable).period = s.period := rfl
@[simp] theorem State.enable_rawTemp (s : State) : (s.enable).rawTemp = s.rawTemp := rfl
@[simp] theorem State.enable_reading (s : State) : (s.enable).reading = s.reading := rfl
@[simp] theorem State.enable_clk (s : State) : (s.enable).clk = s.clk := rfl
@[simp] theorem State.enable_ddir (s : State) : (s.enable).ddir = s.ddir := rfl
@[simp] theorem State.enable_dout (s : State) : (s.enable).dout = s.dout := rfl
@[simp] theorem State.enable_fault (s : State) : (s.enable).fault = s.fault := rfl
@[simp] theorem State.enable_refused (s : State) : (s.enable).refused = s.refused := rfl
@[simp] theorem State.enable_trace (s : State) : (s.enable).trace = s.trace := rfl
@[simp] theorem State.enable_timerLog (s : State) : (s.enable).timerLog = s.timerLog := rfl
@[simp] theorem State.enable_returns (s : State) : (s.enable).returns = s.returns := rfl
@[simp] theorem State.enable_microResult (s : State) : (s.enable).microResult = s.microResult := rfl
@[simp] theorem State.enable_constructed (s : State) : (s.enable).constructed = s.constructed := rfl
@[simp] theorem State.enable_agenda (s : State) : (s.enable).agenda = s.agenda := rfl
@[simp] theorem State.enable_draws (s : State) : (s.enable).draws = s.draws := rfl
@[simp] theorem State.enable_drawCount (s : State) : (s.enable).drawCount = s.drawCount := rfl
@[simp] theorem State.enable_script (s : State) : (s.enable).script = s.script := rfl
@[simp] theorem State.enable_ports (s : State) : (s.enable).ports = s.ports := rfl
@[simp] theorem State.enable_cfg (s : State) : (s.enable).cfg = s.cfg := rfl

/-! ### `State.disarm` -/

@[simp] theorem State.disarm_pstate (s : State) : (s.disarm).pstate = s.pstate := rfl
@[simp] theorem State.disarm_enabled (s : State) : (s.disarm).enabled = false := rfl
@[simp] theorem State.disarm_sched (s : State) : (s.disarm).sched = s.sched := rfl
@[simp] theorem State.disarm_period (s : State) : (s.disarm).period = s.period := rfl
@[simp] theorem State.disarm_rawTemp (s : State) : (s.disarm).rawTemp = s.rawTemp := rfl
@[simp] theorem State.disarm_reading (s : State) : (s.disarm).reading = s.reading := rfl
@[simp] theorem State.disarm_clk (s : State) : (s.disarm).clk = s.clk := rfl
@[simp] theorem State.disarm_ddir (s : State) : (s.disarm).ddir = s.ddir := rfl
@[simp] theorem State.disarm_dout (s : State) : (s.disarm).dout = s.dout := rfl
@[simp] theorem State.disarm_fault (s : State) : (s.disarm).fault = s.fault := rfl
@[simp] theorem State.disarm_refused (s : State) : (s.disarm).refused = s.refused := rfl
@[simp] theorem State.disarm_trace (s : State) : (s.disarm).trace = s.trace := rfl
@[simp] theorem State.disarm_timerLog (s : State) : (s.disarm).timerLog = s.timerLog := rfl
@[simp] theorem State.disarm_returns (s : State) : (s.disarm).returns = s.returns := rfl
@[simp] theorem State.disarm_microResult (s : State) : (s.disarm).microResult = s.microResult := rfl
@[simp] theorem State.disarm_constructed (s : State) : (s.disarm).constructed = s.constructed := rfl
@[simp] theorem State.disarm_agenda (s : State) : (s.disarm).agenda = s.agenda := rfl
@[simp] theorem State.disarm_draws (s : State) : (s.disarm).draws = s.draws := rfl
@[simp] theorem State.disarm_drawCount (s : State) : (s.disarm).drawCount = s.drawCount := rfl
@[simp] theorem State.disarm_script (s : State) : (s.disarm).script = s.script := rfl
@[simp] theorem State.disarm_ports (s : State) : (s.disarm).ports = s.ports := rfl
@[simp] theorem State.disarm_cfg (s : State) : (s.disarm).cfg = s.cfg := rfl

/-! ### `State.leaveTick` -/

@[simp] theorem State.leaveTick_pstate (s : State) (c : BitVec 3) : (s.leaveTick c).pstate = c := rfl
@[simp] theorem State.leaveTick_enabled (s : State) (c : BitVec 3) : (s.leaveTick c).enabled = s.enabled := rfl
@[simp] theorem State.leaveTick_sched (s : State) (c : BitVec 3) : (s.leaveTick c).sched = s.sched := rfl
@[simp] theorem State.leaveTick_period (s : State) (c : BitVec 3) : (s.leaveTick c).period = s.period := rfl
@[simp] theorem State.leaveTick_rawTemp (s : State) (c : BitVec 3) : (s.leaveTick c).rawTemp = s.rawTemp := rfl
@[simp] theorem State.leaveTick_reading (s : State) (c : BitVec 3) : (s.leaveTick c).reading = s.reading := rfl
@[simp] theorem State.leaveTick_clk (s : State) (c : BitVec 3) : (s.leaveTick c).clk = s.clk := rfl
@[simp] theorem State.leaveTick_ddir (s : State) (c : BitVec 3) : (s.leaveTick c).ddir = s.ddir := rfl
@[simp] theorem State.leaveTick_dout (s : State) (c : BitVec 3) : (s.leaveTick c).dout = s.dout := rfl
@[simp] theorem State.leaveTick_fault (s : State) (c : BitVec 3) : (s.leaveTick c).fault = s.fault := rfl
@[simp] theorem State.leaveTick_refused (s : State) (c : BitVec 3) : (s.leaveTick c).refused = s.refused := rfl
@[simp] theorem State.leaveTick_trace (s : State) (c : BitVec 3) : (s.leaveTick c).trace = s.trace := rfl
@[simp] theorem State.leaveTick_timerLog (s : State) (c : BitVec 3) : (s.leaveTick c).timerLog = s.timerLog := rfl
@[simp] theorem State.leaveTick_returns (s : State) (c : BitVec 3) : (s.leaveTick c).returns = s.returns := rfl
@[simp] theorem State.leaveTick_microResult (s : State) (c : BitVec 3) : (s.leaveTick c).microResult = s.microResult := rfl
@[simp] theorem State.leaveTick_constructed (s : State) (c : BitVec 3) : (s.leaveTick c).constructed = s.constructed := rfl
@[simp] theorem State.leaveTick_agenda (s : State) (c : BitVec 3) : (s.leaveTick c).agenda = s.agenda := rfl
@[simp] theorem State.leaveTick_draws (s : State) (c : BitVec 3) : (s.leaveTick c).draws = s.draws := rfl
@[simp] theorem State.leaveTick_drawCount (s : State) (c : BitVec 3) : (s.leaveTick c).drawCount = s.drawCount := rfl
@[simp] theorem State.leaveTick_script (s : State) (c : BitVec 3) : (s.leaveTick c).script = s.script := rfl
@[simp] theorem State.leaveTick_ports (s : State) (c : BitVec 3) : (s.leaveTick c).ports = s.ports := rfl
@[simp] theorem State.leaveTick_cfg (s : State) (c : BitVec 3) : (s.leaveTick c).cfg = s.cfg := rfl

/-! ### `State.returnToHost` -/

@[simp] theorem State.returnToHost_pstate (s : State) (v : Value) : (s.returnToHost v).pstate = s.pstate := rfl
@[simp] theorem State.returnToHost_enabled (s : State) (v : Value) : (s.returnToHost v).enabled = s.enabled := rfl
@[simp] theorem State.returnToHost_sched (s : State) (v : Value) : (s.returnToHost v).sched = s.sched := rfl
@[simp] theorem State.returnToHost_period (s : State) (v : Value) : (s.returnToHost v).period = s.period := rfl
@[simp] theorem State.returnToHost_rawTemp (s : State) (v : Value) : (s.returnToHost v).rawTemp = s.rawTemp := rfl
@[simp] theorem State.returnToHost_reading (s : State) (v : Value) : (s.returnToHost v).reading = s.reading := rfl
@[simp] theorem State.returnToHost_clk (s : State) (v : Value) : (s.returnToHost v).clk = s.clk := rfl
@[simp] theorem State.returnToHost_ddir (s : State) (v : Value) : (s.returnToHost v).ddir = s.ddir := rfl
@[simp] theorem State.returnToHost_dout (s : State) (v : Value) : (s.returnToHost v).dout = s.dout := rfl
@[simp] theorem State.returnToHost_fault (s : State) (v : Value) : (s.returnToHost v).fault = s.fault := rfl
@[simp] theorem State.returnToHost_refused (s : State) (v : Value) : (s.returnToHost v).refused = s.refused := rfl
@[simp] theorem State.returnToHost_trace (s : State) (v : Value) : (s.returnToHost v).trace = s.trace := rfl
@[simp] theorem State.returnToHost_timerLog (s : State) (v : Value) : (s.returnToHost v).timerLog = s.timerLog := rfl
@[simp] theorem State.returnToHost_returns (s : State) (v : Value) : (s.returnToHost v).returns = s.returns ++ [v] := rfl
@[simp] theorem State.returnToHost_microResult (s : State) (v : Value) : (s.returnToHost v).microResult = s.microResult := rfl
@[simp] theorem State.returnToHost_constructed (s : State) (v : Value) : (s.returnToHost v).constructed = s.constructed := rfl
@[simp] theorem State.returnToHost_agenda (s : State) (v : Value) : (s.returnToHost v).agenda = s.agenda := rfl
@[simp] theorem State.returnToHost_draws (s : State) (v : Value) : (s.returnToHost v).draws = s.draws := rfl
@[simp] theorem State.returnToHost_drawCount (s : State) (v : Value) : (s.returnToHost v).drawCount = s.drawCount := rfl
@[simp] theorem State.returnToHost_script (s : State) (v : Value) : (s.returnToHost v).script = s.script := rfl
@[simp] theorem State.returnToHost_ports (s : State) (v : Value) : (s.returnToHost v).ports = s.ports := rfl
@[simp] theorem State.returnToHost_cfg (s : State) (v : Value) : (s.returnToHost v).cfg = s.cfg := rfl

/-! ### `State.returnMicro` -/

@[simp] theorem State.returnMicro_pstate (s : State) (v : Value) : (s.returnMicro v).pstate = s.pstate := rfl
@[simp] theorem State.returnMicro_enabled (s : State) (v : Value) : (s.returnMicro v).enabled = s.enabled := rfl
@[simp] theorem State.returnMicro_sched (s : State) (v : Value) : (s.returnMicro v).sched = s.sched := rfl
@[simp] theorem State.returnMicro_period (s : State) (v : Value) : (s.returnMicro v).period = s.period := rfl
@[simp] theorem State.returnMicro_rawTemp (s : State) (v : Value) : (s.returnMicro v).rawTemp = s.rawTemp := rfl
@[simp] theorem State.returnMicro_reading (s : State) (v : Value) : (s.returnMicro v).reading = s.reading := rfl
@[simp] theorem State.returnMicro_clk (s : State) (v : Value) : (s.returnMicro v).clk = s.clk := rfl
@[simp] theorem State.returnMicro_ddir (s : State) (v : Value) : (s.returnMicro v).ddir = s.ddir := rfl
@[simp] theorem State.returnMicro_dout (s : State) (v : Value) : (s.returnMicro v).dout = s.dout := rfl
@[simp] theorem State.returnMicro_fault (s : State) (v : Value) : (s.returnMicro v).fault = s.fault := rfl
@[simp] theorem State.returnMicro_refused (s : State) (v : Value) : (s.returnMicro v).refused = s.refused := rfl
@[simp] theorem State.returnMicro_trace (s : State) (v : Value) : (s.returnMicro v).trace = s.trace := rfl
@[simp] theorem State.returnMicro_timerLog (s : State) (v : Value) : (s.returnMicro v).timerLog = s.timerLog := rfl
@[simp] theorem State.returnMicro_returns (s : State) (v : Value) : (s.returnMicro v).returns = s.returns := rfl
@[simp] theorem State.returnMicro_microResult (s : State) (v : Value) : (s.returnMicro v).microResult = some v := rfl
@[simp] theorem State.returnMicro_constructed (s : State) (v : Value) : (s.returnMicro v).constructed = s.constructed := rfl
@[simp] theorem State.returnMicro_agenda (s : State) (v : Value) : (s.returnMicro v).agenda = s.agenda := rfl
@[simp] theorem State.returnMicro_draws (s : State) (v : Value) : (s.returnMicro v).draws = s.draws := rfl
@[simp] theorem State.returnMicro_drawCount (s : State) (v : Value) : (s.returnMicro v).drawCount = s.drawCount := rfl
@[simp] theorem State.returnMicro_script (s : State) (v : Value) : (s.returnMicro v).script = s.script := rfl
@[simp] theorem State.returnMicro_ports (s : State) (v : Value) : (s.returnMicro v).ports = s.ports := rfl
@[simp] theorem State.returnMicro_cfg (s : State) (v : Value) : (s.returnMicro v).cfg = s.cfg := rfl

/-! ### `State.publish` -/

@[simp] theorem State.publish_pstate (s : State) (t h : FVal) : (s.publish t h).pstate = s.pstate := rfl
@[simp] theorem State.publish_enabled (s : State) (t h : FVal) : (s.publish t h).enabled = s.enabled := rfl
@[simp] theorem State.publish_sched (s : State) (t h : FVal) : (s.publish t h).sched = s.sched := rfl
@[simp] theorem State.publish_period (s : State) (t h : FVal) : (s.publish t h).period = s.period := rfl
@[simp] theorem State.publish_rawTemp (s : State) (t h : FVal) : (s.publish t h).rawTemp = s.rawTemp := rfl
@[simp] theorem State.publish_reading (s : State) (t h : FVal) : (s.publish t h).reading = some (t, h) := rfl
@[simp] theorem State.publish_clk (s : State) (t h : FVal) : (s.publish t h).clk = s.clk := rfl
@[simp] theorem State.publish_ddir (s : State) (t h : FVal) : (s.publish t h).ddir = s.ddir := rfl
@[simp] theorem State.publish_dout (s : State) (t h : FVal) : (s.publish t h).dout = s.dout := rfl
@[simp] theorem State.publish_fault (s : State) (t h : FVal) : (s.publish t h).fault = s.fault := rfl
@[simp] theorem State.publish_refused (s : State) (t h : FVal) : (s.publish t h).refused = s.refused := rfl
@[simp] theorem State.publish_trace (s : State) (t h : FVal) : (s.publish t h).trace = s.trace := rfl
@[simp] theorem State.publish_timerLog (s : State) (t h : FVal) : (s.publish t h).timerLog = s.timerLog := rfl
@[simp] theorem State.publish_returns (s : State) (t h : FVal) : (s.publish t h).returns = s.returns := rfl
@[simp] theorem State.publish_microResult (s : State) (t h : FVal) : (s.publish t h).microResult = s.microResult := rfl
@[simp] theorem State.publish_constructed (s : State) (t h : FVal) : (s.publish t h).constructed = s.constructed := rfl
@[simp] theorem State.publish_agenda (s : State) (t h : FVal) : (s.publish t h).agenda = s.agenda := rfl
@[simp] theorem State.publish_draws (s : State) (t h : FVal) : (s.publish t h).draws = s.draws := rfl
@[simp] theorem State.publish_drawCount (s : State) (t h : FVal) : (s.publish t h).drawCount = s.drawCount := rfl
@[simp] theorem State.publish_script (s : State) (t h : FVal) : (s.publish t h).script = s.script := rfl
@[simp] theorem State.publish_ports (s : State) (t h : FVal) : (s.publish t h).ports = s.ports := rfl
@[simp] theorem State.publish_cfg (s : State) (t h : FVal) : (s.publish t h).cfg = s.cfg := rfl

/-! ### `State.construct` -/

@[simp] theorem State.construct_pstate (s : State) (p : FVal) : (s.construct p).pstate = 0#3 := rfl
@[simp] theorem State.construct_enabled (s : State) (p : FVal) : (s.construct p).enabled = false := rfl
@[simp] theorem State.construct_sched (s : State) (p : FVal) : (s.construct p).sched = .none := rfl
@[simp] theorem State.construct_period (s : State) (p : FVal) : (s.construct p).period = p := rfl
@[simp] theorem State.construct_rawTemp (s : State) (p : FVal) : (s.construct p).rawTemp = none := rfl
@[simp] theorem State.construct_reading (s : State) (p : FVal) : (s.construct p).reading = none := rfl
@[simp] theorem State.construct_clk (s : State) (p : FVal) : (s.construct p).clk = s.clk := rfl
@[simp] theorem State.construct_ddir (s : State) (p : FVal) : (s.construct p).ddir = s.ddir := rfl
@[simp] theorem State.construct_dout (s : State) (p : FVal) : (s.construct p).dout = s.dout := rfl
@[simp] theorem State.construct_fault (s : State) (p : FVal) : (s.construct p).fault = s.fault := rfl
@[simp] theorem State.construct_refused (s : State) (p : FVal) : (s.construct p).refused = s.refused := rfl
@[simp] theorem State.construct_trace (s : State) (p : FVal) : (s.construct p).trace = s.trace := rfl
@[simp] theorem State.construct_timerLog (s : State) (p : FVal) : (s.construct p).timerLog = s.timerLog := rfl
@[simp] theorem State.construct_returns (s : State) (p : FVal) : (s.construct p).returns = s.returns := rfl
@[simp] theorem State.construct_microResult (s : State) (p : FVal) : (s.construct p).microResult = s.microResult := rfl
@[simp] theorem State.construct_constructed (s : State) (p : FVal) : (s.construct p).constructed = true := rfl
@[simp] theorem State.construct_agenda (s : State) (p : FVal) : (s.construct p).agenda = s.agenda := rfl
@[simp] theorem State.construct_draws (s : State) (p : FVal) : (s.construct p).draws = s.draws := rfl
@[simp] theorem State.construct_drawCount (s : State) (p : FVal) : (s.construct p).drawCount = s.drawCount := rfl
@[simp] theorem State.construct_script (s : State) (p : FVal) : (s.construct p).script = s.script := rfl
@[simp] theorem State.construct_ports (s : State) (p : FVal) : (s.construct p).ports = s.ports := rfl
@[simp] theorem State.construct_cfg (s : State) (p : FVal) : (s.construct p).cfg = s.cfg := rfl

/-! ### `State.pastDraw` -/

@[simp] theorem State.pastDraw_pstate (s : State) : (s.pastDraw).pstate = s.pstate := rfl
@[simp] theorem State.pastDraw_enabled (s : State) : (s.pastDraw).enabled = s.enabled := rfl
@[simp] theorem State.pastDraw_sched (s : State) : (s.pastDraw).sched = s.sched := rfl
@[simp] theorem State.pastDraw_period (s : State) : (s.pastDraw).period = s.period := rfl
@[simp] theorem State.pastDraw_rawTemp (s : State) : (s.pastDraw).rawTemp = s.rawTemp := rfl
@[simp] theorem State.pastDraw_reading (s : State) : (s.pastDraw).reading = s.reading := rfl
@[simp] theorem State.pastDraw_clk (s : State) : (s.pastDraw).clk = s.clk := rfl
@[simp] theorem State.pastDraw_ddir (s : State) : (s.pastDraw).ddir = s.ddir := rfl
@[simp] theorem State.pastDraw_dout (s : State) : (s.pastDraw).dout = s.dout := rfl
@[simp] theorem State.pastDraw_fault (s : State) : (s.pastDraw).fault = s.fault := rfl
@[simp] theorem State.pastDraw_refused (s : State) : (s.pastDraw).refused = s.refused := rfl
@[simp] theorem State.pastDraw_trace (s : State) : (s.pastDraw).trace = s.trace := rfl
@[simp] theorem State.pastDraw_timerLog (s : State) : (s.pastDraw).timerLog = s.timerLog := rfl
@[simp] theorem State.pastDraw_returns (s : State) : (s.pastDraw).returns = s.returns := rfl
@[simp] theorem State.pastDraw_microResult (s : State) : (s.pastDraw).microResult = s.microResult := rfl
@[simp] theorem State.pastDraw_constructed (s : State) : (s.pastDraw).constructed = s.constructed := rfl
@[simp] theorem State.pastDraw_agenda (s : State) : (s.pastDraw).agenda = s.agenda := rfl
@[simp] theorem State.pastDraw_draws (s : State) : (s.pastDraw).draws = s.draws.tail := rfl
@[simp] theorem State.pastDraw_drawCount (s : State) : (s.pastDraw).drawCount = if s.draws.isEmpty then s.drawCount + 1 else s.drawCount := rfl
@[simp] theorem State.pastDraw_script (s : State) : (s.pastDraw).script = s.script := rfl
@[simp] theorem State.pastDraw_ports (s : State) : (s.pastDraw).ports = s.ports := rfl
@[simp] theorem State.pastDraw_cfg (s : State) : (s.pastDraw).cfg = s.cfg := rfl

/-! ### `State.recordFault` -/

@[simp] theorem State.recordFault_pstate (s : State) (k : Fault) : (s.recordFault k).pstate = s.pstate := rfl
@[simp] theorem State.recordFault_enabled (s : State) (k : Fault) : (s.recordFault k).enabled = s.enabled := rfl
@[simp] theorem State.recordFault_sched (s : State) (k : Fault) : (s.recordFault k).sched = s.sched := rfl
@[simp] theorem State.recordFault_period (s : State) (k : Fault) : (s.recordFault k).period = s.period := rfl
@[simp] theorem State.recordFault_rawTemp (s : State) (k : Fault) : (s.recordFault k).rawTemp = s.rawTemp := rfl
@[simp] theorem State.recordFault_reading (s : State) (k : Fault) : (s.recordFault k).reading = s.reading := rfl
@[simp] theorem State.recordFault_clk (s : State) (k : Fault) : (s.recordFault k).clk = s.clk := rfl
@[simp] theorem State.recordFault_ddir (s : State) (k : Fault) : (s.recordFault k).ddir = s.ddir := rfl
@[simp] theorem State.recordFault_dout (s : State) (k : Fault) : (s.recordFault k).dout = s.dout := rfl
@[simp] theorem State.recordFault_fault (s : State) (k : Fault) : (s.recordFault k).fault = some (s.fault.getD k) := rfl
@[simp] theorem State.recordFault_refused (s : State) (k : Fault) : (s.recordFault k).refused = s.refused := rfl
@[simp] theorem State.recordFault_trace (s : State) (k : Fault) : (s.recordFault k).trace = s.trace := rfl
@[simp] theorem State.recordFault_timerLog (s : State) (k : Fault) : (s.recordFault k).timerLog = s.timerLog := rfl
@[simp] theorem State.recordFault_returns (s : State) (k : Fault) : (s.recordFault k).returns = s.returns := rfl
@[simp] theorem State.recordFault_microResult (s : State) (k : Fault) : (s.recordFault k).microResult = s.microResult := rfl
@[simp] theorem State.recordFault_constructed (s : State) (k : Fault) : (s.recordFault k).constructed = s.constructed := rfl
@[simp] theorem State.recordFault_agenda (s : State) (k : Fault) : (s.recordFault k).agenda = s.agenda := rfl
@[simp] theorem State.recordFault_draws (s : State) (k : Fault) : (s.recordFault k).draws = s.draws := rfl
@[simp] theorem State.recordFault_drawCount (s : State) (k : Fault) : (s.recordFault k).drawCount = s.drawCount := rfl
@[simp] theorem State.recordFault_script (s : State) (k : Fault) : (s.recordFault k).script = s.script := rfl
@[simp] theorem State.recordFault_ports (s : State) (k : Fault) : (s.recordFault k).ports = s.ports := rfl
@[simp] theorem State.recordFault_cfg (s : State) (k : Fault) : (s.recordFault k).cfg = s.cfg := rfl

/-! ### `State.enterTick` -/

@[simp] theorem State.enterTick_pstate (s : State) : (s.enterTick).pstate = s.pstate := rfl
@[simp] theorem State.enterTick_enabled (s : State) : (s.enterTick).enabled = s.enabled := rfl
@[simp] theorem State.enterTick_sched (s : State) : (s.enterTick).sched = s.sched.afterFiring := rfl
@[simp] theorem State.enterTick_period (s : State) : (s.enterTick).period = s.period := rfl
@[simp] theorem State.enterTick_rawTemp (s : State) : (s.enterTick).rawTemp = s.rawTemp := rfl
@[simp] theorem State.enterTick_reading (s : State) : (s.enterTick).reading = s.reading := rfl
@[simp] theorem State.enterTick_clk (s : State) : (s.enterTick).clk = s.clk := rfl
@[simp] theorem State.enterTick_ddir (s : State) : (s.enterTick).ddir = s.ddir := rfl
@[simp] theorem State.enterTick_dout (s : State) : (s.enterTick).dout = s.dout := rfl
@[simp] theorem State.enterTick_fault (s : State) : (s.enterTick).fault = s.fault := rfl
@[simp] theorem State.enterTick_refused (s : State) : (s.enterTick).refused = s.refused := rfl
@[simp] theorem State.enterTick_trace (s : State) : (s.enterTick).trace = s.trace := rfl
@[simp] theorem State.enterTick_timerLog (s : State) : (s.enterTick).timerLog = s.timerLog := rfl
@[simp] theorem State.enterTick_returns (s : State) : (s.enterTick).returns = s.returns := rfl
@[simp] theorem State.enterTick_microResult (s : State) : (s.enterTick).microResult = s.microResult := rfl
@[simp] theorem State.enterTick_constructed (s : State) : (s.enterTick).constructed = s.constructed := rfl
@[simp] theorem State.enterTick_agenda (s : State) : (s.enterTick).agenda = s.agenda := rfl
@[simp] theorem State.enterTick_draws (s : State) : (s.enterTick).draws = s.draws := rfl
@[simp] theorem State.enterTick_drawCount (s : State) : (s.enterTick).drawCount = s.drawCount := rfl
@[simp] theorem State.enterTick_script (s : State) : (s.enterTick).script = s.script := rfl
@[simp] theorem State.enterTick_ports (s : State) : (s.enterTick).ports = s.ports := rfl
@[simp] theorem State.enterTick_cfg (s : State) : (s.enterTick).cfg = s.cfg := rfl

end Sys2Proof.Machine
end

