-- ==== Sys2Proof/Laws/Line.lean ====
section
/-! SUPPORT. The shared operations that can stop: sequencing, the sensor's draws and the line programs. -/

namespace Sys2Proof.Machine

/-! ### Sequencing -/

@[simp] theorem andThen_next {α β : Type} (a : α) (f : α → Host.Outcome β Fault Refusal) :
    andThen (.next a) f = f a := rfl

@[simp] theorem andThen_fault {α β : Type} (k : Fault) (f : α → Host.Outcome β Fault Refusal) :
    andThen (.fault k) f = .fault k := rfl

@[simp] theorem andThen_refused {α β : Type} (r : Refusal) (f : α → Host.Outcome β Fault Refusal) :
    andThen (.refused r) f = .refused r := rfl

/-- A sequence gives a next state exactly when both parts do. -/
theorem andThen_eq_next {α β : Type} {x : Host.Outcome α Fault Refusal}
    {f : α → Host.Outcome β Fault Refusal} {b : β} :
    andThen x f = .next b ↔ ∃ a, x = .next a ∧ f a = .next b := by
  cases x <;> simp

/-- A sequence faults exactly when a part does. -/
theorem andThen_eq_fault {α β : Type} {x : Host.Outcome α Fault Refusal}
    {f : α → Host.Outcome β Fault Refusal} {k : Fault} :
    andThen x f = .fault k ↔ x = .fault k ∨ ∃ a, x = .next a ∧ f a = .fault k := by
  cases x <;> simp

theorem andThen_assoc {α β γ : Type} (x : Host.Outcome α Fault Refusal)
    (f : α → Host.Outcome β Fault Refusal) (g : β → Host.Outcome γ Fault Refusal) :
    andThen (andThen x f) g = andThen x fun a => andThen (f a) g := by
  cases x <;> rfl

/-! ### Draws -/

@[simp] theorem State.canDraw_zero (s : State) : s.canDraw 0 = true := by simp [State.canDraw]

theorem State.canDraw_of_free {s : State} (n : Nat) (h : s.script = false) : s.canDraw n = true := by
  simp [State.canDraw, h]

theorem State.canDraw_iff (s : State) (n : Nat) :
    s.canDraw n = true ↔ s.script = false ∨ n ≤ s.draws.length := by
  simp [State.canDraw]

theorem State.canDraw_succ (s : State) (n : Nat) :
    s.canDraw (n + 1) = (s.canDraw 1 && s.pastDraw.canDraw n) := by
  rw [Bool.eq_iff_iff, Bool.and_eq_true]
  simp only [State.canDraw_iff, State.pastDraw_script, State.pastDraw_draws, List.length_tail]
  cases s.script <;> simp; omega

theorem State.canDraw_add (m n : Nat) (s : State) :
    s.canDraw (m + n) = (s.canDraw m && (s.pastDraws m).canDraw n) := by
  rw [Bool.eq_iff_iff, Bool.and_eq_true]
  simp only [State.canDraw_iff, State.pastDraws, List.length_drop]
  cases s.script <;> simp; omega

theorem State.pastDraws_zero (s : State) : s.pastDraws 0 = s := by simp [State.pastDraws]

theorem State.pastDraws_succ (s : State) (n : Nat) : s.pastDraws (n + 1) = s.pastDraw.pastDraws n := by
  unfold State.pastDraws State.pastDraw
  cases h : s.draws with
  | nil => simp; omega
  | cons v vs => simp

theorem State.pastDraws_add (m n : Nat) (s : State) :
    s.pastDraws (m + n) = (s.pastDraws m).pastDraws n := by
  unfold State.pastDraws
  simp only [List.drop_drop, List.length_drop]
  congr 1
  omega

theorem State.upcoming_add (m n : Nat) (s : State) :
    s.upcoming (m + n) = s.upcoming m ++ (s.pastDraws m).upcoming n := by
  induction m generalizing s with
  | zero => simp [State.upcoming, State.pastDraws_zero]
  | succ m ih => simp [State.upcoming, State.pastDraws_succ, Nat.succ_add, ih]

@[simp] theorem State.upcoming_length (s : State) (n : Nat) : (s.upcoming n).length = n := by
  induction n generalizing s with
  | zero => rfl
  | succ n ih => simp [State.upcoming, ih]

/-- The values a long enough SENSOR queue gives are its own first ones. -/
theorem State.upcoming_of_queue (s : State) (n : Nat) (h : n ≤ s.draws.length) :
    s.upcoming n = s.draws.take n := by
  induction n generalizing s with
  | zero => simp [State.upcoming]
  | succ n ih =>
    cases hd : s.draws with
    | nil => simp [hd] at h
    | cons v vs =>
      have hv : s.nextDraw = v := by simp [State.nextDraw, hd]
      rw [State.upcoming, ih _ (by simp [hd] at h ⊢; exact h), hv]
      simp [hd]

/-- `SensorDraw()` gives the next value, or the run is stuck. -/
theorem State.sensorDraw_eq (s : State) :
    s.sensorDraw = if s.canDraw 1 then .next (s.nextDraw, s.pastDraw) else .refused .noDraw := by
  unfold State.sensorDraw State.canDraw
  cases s.script <;> cases s.draws <;> simp

/-- `DIn()` gives the next value and appends its event, or the run is stuck. -/
theorem State.dIn_eq (s : State) :
    s.dIn = if s.canDraw 1 then .next (s.nextDraw, s.pastDraw.emit (.sample s.nextDraw)) else .refused .noDraw := by
  unfold State.dIn
  rw [State.sensorDraw_eq]
  split <;> rfl

/-! ### Line programs -/

/-- How many samples a program takes. -/
def samplesIn : List LineOp → Nat
  | [] => 0
  | .din :: ops => samplesIn ops + 1
  | .ddir _ :: ops => samplesIn ops
  | .dout _ :: ops => samplesIn ops
  | .clk _ :: ops => samplesIn ops
  | .wait :: ops => samplesIn ops

/-- The events a program appends, its samples taken from the list. -/
def eventsOf : List LineOp → List Bool → List BusEvent
  | [], _ => []
  | .ddir d :: ops, vs => .ddir d :: eventsOf ops vs
  | .dout b :: ops, vs => .dout b :: eventsOf ops vs
  | .clk b :: ops, vs => .clk b :: eventsOf ops vs
  | .wait :: ops, vs => .wait :: eventsOf ops vs
  | .din :: ops, [] => eventsOf ops []
  | .din :: ops, v :: vs => .sample v :: eventsOf ops vs

/-- DATA's mode after a program, from the mode before. -/
def dirAfter : List LineOp → Dir → Dir
  | [], d => d
  | .ddir d :: ops, _ => dirAfter ops d
  | .dout _ :: ops, d => dirAfter ops d
  | .clk _ :: ops, d => dirAfter ops d
  | .wait :: ops, d => dirAfter ops d
  | .din :: ops, d => dirAfter ops d

/-- The DATA latch after a program, from the latch before. -/
def doutAfter : List LineOp → Bool → Bool
  | [], b => b
  | .dout b :: ops, _ => doutAfter ops b
  | .ddir _ :: ops, b => doutAfter ops b
  | .clk _ :: ops, b => doutAfter ops b
  | .wait :: ops, b => doutAfter ops b
  | .din :: ops, b => doutAfter ops b

/-- CLOCK's level after a program, from the level before. -/
def clkAfter : List LineOp → Bool → Bool
  | [], b => b
  | .clk b :: ops, _ => clkAfter ops b
  | .ddir _ :: ops, b => clkAfter ops b
  | .dout _ :: ops, b => clkAfter ops b
  | .wait :: ops, b => clkAfter ops b
  | .din :: ops, b => clkAfter ops b

/-- The lines and the trace set to given values. -/
def State.withLines (s : State) (d : Dir) (o c : Bool) (t : List BusEvent) : State :=
  { s with ddir := d, dout := o, clk := c, trace := t }

/-- The state after a program. -/
def State.afterLine (s : State) (ops : List LineOp) : State :=
  (s.pastDraws (samplesIn ops)).withLines (dirAfter ops s.ddir) (doutAfter ops s.dout) (clkAfter ops s.clk)
    (s.trace ++ eventsOf ops (s.upcoming (samplesIn ops)))

/-- What the sensor will answer does not depend on the lines or the trace (40_bus.md R101). -/
@[simp] theorem State.upcoming_withLines (s : State) (d : Dir) (o c : Bool) (t : List BusEvent) (n : Nat) :
    (s.withLines d o c t).upcoming n = s.upcoming n := by
  induction n generalizing s with
  | zero => rfl
  | succ n ih =>
    show s.nextDraw :: ((s.pastDraw).withLines d o c t).upcoming n = _
    rw [ih]; rfl

/-- A program of one more operation that takes no sample. -/
theorem State.runLine_cons_quiet (s : State) (op : LineOp) (ops : List LineOp) (d : Dir) (o c : Bool)
    (e : BusEvent) (h : s.lineOp op = .next ([], s.withLines d o c (s.trace ++ [e])))
    (ih : ∀ s : State, s.runLine ops = if s.canDraw (samplesIn ops)
      then .next (s.upcoming (samplesIn ops), s.afterLine ops) else .refused .noDraw) :
    s.runLine (op :: ops) = if s.canDraw (samplesIn ops)
      then .next (s.upcoming (samplesIn ops), (s.pastDraws (samplesIn ops)).withLines (dirAfter ops d)
        (doutAfter ops o) (clkAfter ops c) (s.trace ++ e :: eventsOf ops (s.upcoming (samplesIn ops))))
      else .refused .noDraw := by
  rw [State.runLine, h, andThen_next, ih]
  have hc : (s.withLines d o c (s.trace ++ [e])).canDraw (samplesIn ops) = s.canDraw (samplesIn ops) := rfl
  rw [hc]
  split
  · simp only [andThen_next, State.afterLine, State.upcoming_withLines, List.nil_append]
    simp [State.withLines, State.pastDraws]
  · rfl

/-- Everything a line program does: with enough draws it ends, with its samples and its closed effect;
without, the run is stuck. It never faults. -/
theorem State.runLine_eq (ops : List LineOp) (s : State) :
    s.runLine ops = if s.canDraw (samplesIn ops)
      then .next (s.upcoming (samplesIn ops), s.afterLine ops) else .refused .noDraw := by
  induction ops generalizing s with
  | nil => simp [State.runLine, State.upcoming, State.afterLine, samplesIn, State.pastDraws_zero, eventsOf,
      dirAfter, doutAfter, clkAfter, State.withLines]
  | cons op ops ih =>
    cases op with
    | ddir d => exact State.runLine_cons_quiet s _ ops d s.dout s.clk _ rfl ih
    | dout b => exact State.runLine_cons_quiet s _ ops s.ddir b s.clk _ rfl ih
    | clk b => exact State.runLine_cons_quiet s _ ops s.ddir s.dout b _ rfl ih
    | wait => exact State.runLine_cons_quiet s _ ops s.ddir s.dout s.clk _ rfl ih
    | din =>
      rw [State.runLine, State.lineOp, State.dIn_eq, samplesIn, State.canDraw_succ s (samplesIn ops)]
      cases h1 : s.canDraw 1
      · simp
      · simp only [ih, Bool.true_and]
        have he : s.pastDraw.emit (.sample s.nextDraw)
            = s.pastDraw.withLines s.ddir s.dout s.clk (s.trace ++ [.sample s.nextDraw]) := rfl
        have hc : (s.pastDraw.emit (.sample s.nextDraw)).canDraw (samplesIn ops)
            = s.pastDraw.canDraw (samplesIn ops) := rfl
        rw [if_pos trivial, andThen_next, andThen_next, hc]
        cases h2 : s.pastDraw.canDraw (samplesIn ops)
        · simp
        · simp only [if_pos, andThen_next, he, State.afterLine, State.upcoming_withLines, samplesIn,
            State.pastDraws_succ, State.upcoming, eventsOf, dirAfter, doutAfter, clkAfter, List.singleton_append]
          simp [State.withLines, State.pastDraws]

/-- A program run for its effect alone. -/
theorem State.drive_eq (ops : List LineOp) (s : State) :
    s.drive ops = if s.canDraw (samplesIn ops) then .next (s.afterLine ops) else .refused .noDraw := by
  unfold State.drive
  rw [State.runLine_eq]
  split <;> rfl

/-- A program that takes no sample always ends. -/
theorem State.drive_quiet (ops : List LineOp) (s : State) (h : samplesIn ops = 0) :
    s.drive ops = .next (s.withLines (dirAfter ops s.ddir) (doutAfter ops s.dout) (clkAfter ops s.clk)
      (s.trace ++ eventsOf ops [])) := by
  rw [State.drive_eq, h, if_pos (State.canDraw_zero s), State.afterLine, h, State.pastDraws_zero]
  rfl

end Sys2Proof.Machine
end

