-- ==== Sys2Proof/Laws/Words.lean ====
section
/-! SUPPORT. What received bits and bytes are worth: the byte and the count of samples, as numbers (20_memory.md R51, R52). -/

namespace Sys2Proof.Machine

/-- More digits on the right of a number shift it left. -/
theorem natOfBits_foldl (ys : List Bool) (n : Nat) :
    ys.foldl (fun n v => 2 * n + v.toNat) n = n * 2 ^ ys.length + natOfBits ys := by
  induction ys generalizing n with
  | nil => simp [natOfBits]
  | cons y ys ih =>
    simp only [List.foldl_cons, natOfBits, List.length_cons]
    rw [ih, ih (2 * 0 + _)]
    ring

/-- A number of digits followed by more digits. -/
theorem natOfBits_append (xs ys : List Bool) :
    natOfBits (xs ++ ys) = natOfBits xs * 2 ^ ys.length + natOfBits ys := by
  rw [natOfBits, List.foldl_append, natOfBits_foldl]
  rfl

/-- `n` digits are worth less than 2^n. -/
theorem natOfBits_lt (ys : List Bool) : natOfBits ys < 2 ^ ys.length := by
  induction ys with
  | nil => simp [natOfBits]
  | cons y ys ih =>
    have h : natOfBits (y :: ys) = y.toNat * 2 ^ ys.length + natOfBits ys := natOfBits_append [y] ys |>.trans (by
      simp [natOfBits])
    rw [h, List.length_cons, Nat.pow_succ]
    cases y <;> simp <;> omega

/-- The digits of a byte, each given: the accumulator holds their number. -/
theorem byteOfSamples_digits : ∀ a b c d e f g h : Bool,
    byteOfSamples [a, b, c, d, e, f, g, h] = BitVec.ofNat 8 (natOfBits [a, b, c, d, e, f, g, h]) := by decide

/-- The accumulator of eight samples holds their number. -/
theorem byteOfSamples_eq (vs : List Bool) (h : vs.length = 8) :
    byteOfSamples vs = BitVec.ofNat 8 (natOfBits vs) := by
  match vs, h with
  | [a, b, c, d, e, f, g, i], _ => exact byteOfSamples_digits a b c d e f g i

/-- Two bytes of eight samples hold the number of the sixteen. -/
theorem countOfBytes_eq (vs : List Bool) (h : vs.length = 16) :
    countOfBytes 16 (byteOfSamples (vs.take 8)) (byteOfSamples (vs.drop 8)) = BitVec.ofNat 16 (natOfBits vs) := by
  have h1 := natOfBits_lt (vs.take 8)
  have h2 := natOfBits_lt (vs.drop 8)
  have h3 := natOfBits_append (vs.take 8) (vs.drop 8)
  rw [byteOfSamples_eq _ (by simp [h]), byteOfSamples_eq _ (by simp [h])]
  rw [List.take_append_drop] at h3
  simp only [List.length_take, List.length_drop, h] at h1 h2 h3
  rw [h3]
  generalize natOfBits (vs.take 8) = a at *
  generalize natOfBits (vs.drop 8) = b at *
  norm_num at h1 h2
  apply BitVec.eq_of_toNat_eq
  simp only [countOfBytes, BitVec.toNat_or, BitVec.toNat_shiftLeft, BitVec.toNat_setWidth, BitVec.toNat_ofNat,
    BitVec.setWidth_eq]
  rw [Nat.mod_eq_of_lt (show a % 2 ^ 8 < 2 ^ 16 by omega), Nat.mod_eq_of_lt (show a < 2 ^ 8 by omega),
    Nat.mod_eq_of_lt (show b % 2 ^ 8 < 2 ^ 16 by omega), Nat.mod_eq_of_lt (show b < 2 ^ 8 by omega),
    Nat.mod_eq_of_lt (show a <<< 8 < 2 ^ 16 by rw [Nat.shiftLeft_eq]; omega),
    ← Nat.shiftLeft_add_eq_or_of_lt (show b < 2 ^ 8 by omega), Nat.shiftLeft_eq]
  norm_num
  omega

end Sys2Proof.Machine
end

