-- ==== Sys2Proof/Laws/Bus.lean ====
section
/-! SUPPORT. Everything each bus primitive does, in one equation each: with enough draws its exit lines
(40_bus.md R113), its trace and its result; without, the run is stuck. -/

namespace Sys2Proof.Machine

/-- PULSE takes no sample and leaves CLOCK low. -/
theorem pulse_eq (s : State) :
    pulse s = .next (s.withLines s.ddir s.dout false (s.trace ++ clockPulse)) := by
  rw [pulse, State.drive_quiet _ _ (by rfl)]
  rfl

/-- START drives DATA high and leaves CLOCK low. -/
theorem start_eq (s : State) :
    start s = .next (s.withLines .output true false (s.trace ++ startEvents)) := by
  rw [start, State.drive_quiet _ _ (by rfl)]
  rfl

/-- SOFT_RESET drives DATA high and leaves CLOCK low. -/
theorem softReset_eq (s : State) :
    softReset s = .next (s.withLines .output true false (s.trace ++ softResetEvents)) := by
  rw [softReset, Config.resetPulses_eq, State.drive_quiet _ _ (by rfl)]
  rfl

/-- ACK_BYTE releases DATA and leaves CLOCK low. -/
theorem ackByte_eq (s : State) :
    ackByte s = .next (s.withLines .input false false (s.trace ++ ackByteEvents)) := by
  rw [ackByte, State.drive_quiet _ _ (by rfl)]
  rfl

/-- TERMINATE drives DATA high and leaves CLOCK low. -/
theorem terminate_eq (s : State) :
    terminate s = .next (s.withLines .output true false (s.trace ++ terminateEvents)) := by
  rw [terminate, State.drive_quiet _ _ (by rfl)]
  rfl

/-- SEND_COMMAND takes one sample, of which only the trace shows the value. -/
theorem sendCommand_eq (c : Byte) (s : State) :
    sendCommand c s = if s.canDraw 1
      then .next ((s.pastDraws 1).withLines .input (c.getLsbD 0) false
        (s.trace ++ sendCommandEvents c s.nextDraw))
      else .refused .noDraw := by
  rw [sendCommand, Config.cmdBits_eq, State.drive_eq]
  rfl

/-- RECEIVE_BYTE takes eight samples, the byte's digits. -/
theorem receiveByte_eq (s : State) :
    receiveByte s = if s.canDraw 8
      then .next (BitVec.ofNat 8 (natOfBits (s.upcoming 8)), (s.pastDraws 8).withLines .input s.dout false
        (s.trace ++ receiveByteEvents (s.upcoming 8)))
      else .refused .noDraw := by
  rw [receiveByte, State.runLine_eq]
  have h : samplesIn receiveByteOps = 8 := rfl
  rw [h]
  split
  · rw [andThen_next, byteOfSamples_eq _ (State.upcoming_length s 8)]
    rfl
  · rfl

/-- SAMPLE_READY takes one sample when DATA is an input, and faults otherwise. -/
theorem sampleReady_eq (s : State) :
    sampleReady s = match s.ddir with
      | .output => .fault .badLineMode
      | .input => if s.canDraw 1
          then .next (!s.nextDraw, s.pastDraw.emit (.sample s.nextDraw)) else .refused .noDraw := by
  unfold sampleReady
  cases s.ddir with
  | output => rfl
  | input => simp only [State.dIn_eq]; split <;> rfl

/-- The sixteen samples of a word are those of its two bytes. -/
theorem State.upcoming_sixteen (s : State) :
    (s.upcoming 16).take 8 = s.upcoming 8 ∧ (s.upcoming 16).drop 8 = (s.pastDraws 8).upcoming 8 := by
  rw [show (16 : Nat) = 8 + 8 from rfl, State.upcoming_add]
  simp

/-- RECEIVE_WORD takes sixteen samples, the count's digits. -/
theorem receiveWord_eq (s : State) :
    receiveWord s = if s.canDraw 16
      then .next (BitVec.ofNat 16 (natOfBits (s.upcoming 16)),
        (s.pastDraws 16).withLines .output true false (s.trace ++ receiveWordEvents (s.upcoming 16)))
      else .refused .noDraw := by
  rw [← countOfBytes_eq _ (State.upcoming_length s 16), byteOfSamples_eq _ (by simp), byteOfSamples_eq _ (by simp),
    receiveWord, Config.rawBits_eq, receiveByte_eq, show (16 : Nat) = 8 + 8 from rfl, State.canDraw_add]
  cases h1 : s.canDraw 8
  · rfl
  · rw [if_pos rfl, andThen_next, ackByte_eq, andThen_next, receiveByte_eq]
    have hc : (((s.pastDraws 8).withLines .input s.dout false
        (s.trace ++ receiveByteEvents (s.upcoming 8))).withLines .input false false
        (((s.pastDraws 8).withLines .input s.dout false
        (s.trace ++ receiveByteEvents (s.upcoming 8))).trace ++ ackByteEvents)).canDraw 8
          = (s.pastDraws 8).canDraw 8 := rfl
    rw [hc]
    cases h2 : (s.pastDraws 8).canDraw 8
    · rfl
    · have hp : s.pastDraws (8 + 8) = (s.pastDraws 8).pastDraws 8 := State.pastDraws_add 8 8 s
      simp only [if_pos, andThen_next, terminate_eq, State.upcoming_withLines, Bool.and_self, hp,
        receiveWordEvents]
      simp [State.withLines, State.pastDraws, s.upcoming_sixteen.1, s.upcoming_sixteen.2]

/-- MEASURE c: the start condition, then the command. -/
theorem measure_eq (c : Byte) (s : State) :
    measure c s = if s.canDraw 1
      then .next ((s.pastDraws 1).withLines .input (c.getLsbD 0) false
        (s.trace ++ startEvents ++ sendCommandEvents c s.nextDraw))
      else .refused .noDraw := by
  rw [measure, start_eq, andThen_next, sendCommand_eq]
  rfl

end Sys2Proof.Machine
end

