-- ==== Sys2Proof/Laws/Dispatch.lean ====
section
/-! SUPPORT. Each arm of the dispatch, as an equation: what an instruction runs. -/

namespace Sys2Proof.Machine

theorem exec_reset (period0 : FVal) (s : State) : exec (.reset period0) s = execReset period0 s := rfl
theorem exec_init (s : State) : exec .init s = execInit s := rfl
theorem exec_disable (s : State) : exec .disable s = execDisable s := rfl
theorem exec_setCyclePeriod (x : FVal) (s : State) : exec (.setCyclePeriod x) s = execSetCyclePeriod x s := rfl
theorem exec_lastTemperature (s : State) : exec .lastTemperature s = execLastTemperature s := rfl
theorem exec_lastHumidity (s : State) : exec .lastHumidity s = execLastHumidity s := rfl
theorem exec_lastBoth (s : State) : exec .lastBoth s = execLastBoth s := rfl
theorem exec_tickS0 (s : State) : exec .tickS0 s = execTickS0 s := rfl
theorem exec_tickS1 (s : State) : exec .tickS1 s = execTickS1 s := rfl
theorem exec_tickS2 (s : State) : exec .tickS2 s = execTickS2 s := rfl
theorem exec_tickS3 (s : State) : exec .tickS3 s = execTickS3 s := rfl
theorem exec_tickS4 (s : State) : exec .tickS4 s = execTickS4 s := rfl
theorem exec_tickS5 (s : State) : exec .tickS5 s = execTickS5 s := rfl
theorem exec_pulse (s : State) : exec .pulse s = execPulse s := rfl
theorem exec_start (s : State) : exec .start s = execStart s := rfl
theorem exec_softReset (s : State) : exec .softReset s = execSoftReset s := rfl
theorem exec_sendCommand (c : Byte) (s : State) : exec (.sendCommand c) s = execSendCommand c s := rfl
theorem exec_receiveByte (s : State) : exec .receiveByte s = execReceiveByte s := rfl
theorem exec_ackByte (s : State) : exec .ackByte s = execAckByte s := rfl
theorem exec_terminate (s : State) : exec .terminate s = execTerminate s := rfl
theorem exec_sampleReady (s : State) : exec .sampleReady s = execSampleReady s := rfl
theorem exec_receiveWord (s : State) : exec .receiveWord s = execReceiveWord s := rfl
theorem exec_convTemp (r : Count) (s : State) : exec (.convTemp r) s = execConvTemp r s := rfl
theorem exec_convHum (t : FVal) (h : Count) (s : State) : exec (.convHum t h) s = execConvHum t h s := rfl
theorem exec_measureT (s : State) : exec .measureT s = execMeasureT s := rfl
theorem exec_measureRh (s : State) : exec .measureRh s = execMeasureRh s := rfl

end Sys2Proof.Machine
end

