-- ==== Sys2Proof/Laws/Shared.lean ====
section
/-! SUPPORT. Everything each operation shared by several meanings does: REARM, CLAMP, the published pair, the
command ticks and the ready poll. -/

namespace Sys2Proof.Machine

/-- REARM always ends (43_shell.md R180). -/
theorem rearm_eq (s : State) :
    rearm s = .next { s with
      pstate := 0#3
      enabled := true
      sched := .recurring s.period
      rawTemp := none
      clk := false
      ddir := .output
      dout := true
      trace := s.trace ++ softResetEvents
      timerLog := s.timerLog ++ [.schedRec s.period] } := by
  rw [rearm, softReset_eq, andThen_next]
  rfl

@[simp] theorem isNaN64_iff (x : FVal) : isNaN64 x = true ↔ 0x7FF0000000000000 < magnitude64 x := by
  simp [isNaN64]

@[simp] theorem sign64_iff (x : FVal) : sign64 x = true ↔ 2 ^ 63 ≤ x.toNat := by
  simp [sign64]

/-- Comparison with 2.0: below it are the patterns with a sign and the patterns under its own. -/
theorem lt64_minPeriod (x : FVal) :
    lt64 x 0x4000000000000000#64 = true ↔ 2 ^ 63 ≤ x.toNat ∨ x.toNat < 0x4000000000000000 := by
  have hx : x.toNat < 2 ^ 64 := x.isLt
  have hs : sign64 0x4000000000000000#64 = false := by decide
  have hm : magnitude64 0x4000000000000000#64 = 0x4000000000000000 := by decide
  unfold lt64
  rw [hs, hm]
  cases h : sign64 x with
  | false =>
    have h' : ¬ 2 ^ 63 ≤ x.toNat := by rw [← sign64_iff, h]; simp
    simp only [decide_eq_true_eq]
    unfold magnitude64
    omega
  | true =>
    have h' : 2 ^ 63 ≤ x.toNat := by rw [← sign64_iff, h]
    simp; omega

/-- What CLAMP gives is finite and at least 2.0 (43_shell.md R184). -/
theorem clamp_legal {c : Config} {x p : FVal} (h : clamp c x = some p) : legalPeriod p := by
  have hx : x.toNat < 2 ^ 64 := x.isLt
  rw [clamp, Config.minPeriod_eq] at h
  split at h
  · exact absurd h (by simp)
  · rename_i hn
    split at h
    · cases h; decide
    · rename_i hlt
      cases h
      rw [lt64_minPeriod] at hlt
      simp only [Bool.or_eq_true, not_or, beq_iff_eq, isNaN64_iff, magnitude64] at hn
      have hinf : x.toNat ≠ 0x7FF0000000000000 := fun hc => hn.2 (BitVec.eq_of_toNat_eq hc)
      constructor <;> omega

/-- A period CLAMP can give is one it leaves as it is. -/
theorem clamp_of_legal {c : Config} {x : FVal} (h : legalPeriod x) : clamp c x = some x := by
  obtain ⟨h1, h2⟩ := h
  have hne : ¬ x = plusInfinity64 := by
    intro hc
    have : x.toNat = 0x7FF0000000000000 := by rw [hc]; rfl
    omega
  have hn : ¬ (isNaN64 x || x == plusInfinity64) = true := by
    simp [hne, magnitude64]; omega
  have hl : ¬ lt64 x c.minPeriod = true := by rw [Config.minPeriod_eq, lt64_minPeriod]; omega
  rw [clamp, if_neg hn, if_neg hl]

/-- The published pair, when there is one. -/
theorem State.published_eq (s : State) :
    s.published = match s.reading with
      | none => .fault .readingUnwritten
      | some r => .next r := rfl

/-- A command tick with its one draw (41_sequencer.md R132, R135). -/
theorem beginMeasurement_eq (c : Byte) (successor : BitVec 3) (s : State) :
    beginMeasurement c successor s = if s.canDraw 1
      then .next { s.pastDraws 1 with
        pstate := successor
        sched := .once s.cfg.pollUs
        clk := false
        ddir := .input
        dout := c.getLsbD 0
        trace := s.trace ++ startEvents ++ sendCommandEvents c s.nextDraw
        timerLog := s.timerLog ++ [.schedOnce s.cfg.pollUs] }
      else .refused .noDraw := by
  rw [beginMeasurement, measure_eq]
  split <;> rfl

/-- A ready poll: it faults unless DATA is an input, and otherwise its one draw decides (41_sequencer.md R133, R136). -/
theorem pollReady_eq (stay go : BitVec 3) (s : State) :
    pollReady stay go s = match s.ddir with
      | .output => .fault .badLineMode
      | .input => if s.canDraw 1
          then .next (afterPoll stay go (!s.nextDraw) (s.pastDraw.emit (.sample s.nextDraw)))
          else .refused .noDraw := by
  rw [pollReady, sampleReady_eq]
  cases s.ddir with
  | output => rfl
  | input => dsimp only; split <;> rfl

end Sys2Proof.Machine
end

