-- ==== Sys2Proof/Laws/Exec.lean ====
section
/-! SUPPORT. What a completed instruction can have done, said once for all of them: the frame of each kind. -/

namespace Sys2Proof.Machine

/-- How an instruction changed the state, when it gave a next state. Fields not named are as before. -/
inductive Effect (s : State) : Instr → State → Prop where
  /-- A micro-operation or a wire command: lines, trace, result and draws. CLOCK ends low or as it was. -/
  | port {i : Instr} (n : Nat) (c o : Bool) (d : Dir) (tr : List BusEvent) (m : Option Value)
      (hi : i.format = .micro12 ∨ i.format = .wireCmd) (hc : c = false ∨ c = s.clk) :
      Effect s i { s.pastDraws n with clk := c, ddir := d, dout := o, trace := tr, microResult := m }
  /-- RESET (70_reset_and_hazards.md R231). -/
  | reset (x p : FVal) (hp : clamp s.cfg x = some p) :
      Effect s (.reset x) { s with
        pstate := 0#3, enabled := s.cfg.armAtConstruction,
        sched := if s.cfg.armAtConstruction then .recurring p else .none,
        period := p, rawTemp := none, reading := none, clk := false, ddir := .output, dout := true,
        constructed := true, trace := s.trace ++ softResetEvents,
        timerLog := s.timerLog ++ if s.cfg.armAtConstruction then [.schedRec p] else [] }
  /-- INIT (43_shell.md R181). -/
  | init :
      Effect s .init { s with
        pstate := 0#3, enabled := true, sched := .recurring s.period, rawTemp := none,
        clk := false, ddir := .output, dout := true, trace := s.trace ++ softResetEvents,
        timerLog := s.timerLog ++ [.schedRec s.period] }
  /-- DISABLE (43_shell.md R182). -/
  | disable : Effect s .disable { s with sched := .none, enabled := false, timerLog := s.timerLog ++ [.cancel] }
  /-- SET_CYCLE_PERIOD while enabled (43_shell.md R183). -/
  | rearmed (x p : FVal) (hp : clamp s.cfg x = some p) (he : s.enabled = true) :
      Effect s (.setCyclePeriod x) { s with
        pstate := 0#3, enabled := true, sched := .recurring p, period := p, rawTemp := none,
        clk := false, ddir := .output, dout := true, trace := s.trace ++ softResetEvents,
        timerLog := s.timerLog ++ [.cancel, .schedRec p] }
  /-- SET_CYCLE_PERIOD while disabled (43_shell.md R183). -/
  | periodOnly (x p : FVal) (hp : clamp s.cfg x = some p) (he : s.enabled = false) :
      Effect s (.setCyclePeriod x) { s with period := p }
  /-- The three accessors (43_shell.md R185 to R187). -/
  | returned {i : Instr} (rs : List Value) (hi : i = .lastTemperature ∨ i = .lastHumidity ∨ i = .lastBoth)
      (hr : s.reading ≠ none) : Effect s i { s with returns := rs }
  /-- TICK.S0 and TICK.S3 (41_sequencer.md R132, R135). -/
  | command {i : Instr} (next : BitVec 3) (tr : List BusEvent)
      (hi : i = .tickS0 ∧ next = 1#3 ∨ i = .tickS3 ∧ next = 4#3) :
      Effect s i { s.pastDraws 1 with
        pstate := next, sched := .once s.cfg.pollUs, clk := false, ddir := .input, dout := true, trace := tr,
        timerLog := s.timerLog ++ [.schedOnce s.cfg.pollUs] }
  /-- TICK.S1 and TICK.S4 (41_sequencer.md R133, R136). -/
  | polled {i : Instr} (stay go : BitVec 3)
      (hi : i = .tickS1 ∧ stay = 1#3 ∧ go = 2#3 ∨ i = .tickS4 ∧ stay = 4#3 ∧ go = 5#3) (hd : s.ddir = .input) :
      Effect s i (afterPoll stay go (!s.nextDraw) (s.pastDraw.emit (.sample s.nextDraw)))
  /-- TICK.S2 (41_sequencer.md R134). -/
  | rawStored (r : Count) (tr : List BusEvent) :
      Effect s .tickS2 { s.pastDraws 16 with
        pstate := 3#3, sched := .once s.cfg.fastUs, rawTemp := some r, clk := false, ddir := .output, dout := true,
        trace := tr, timerLog := s.timerLog ++ [.schedOnce s.cfg.fastUs] }
  /-- TICK.S5 (41_sequencer.md R137). -/
  | published (r h : Count) (tr : List BusEvent) (hr : s.rawTemp = some r) :
      Effect s .tickS5 { s.pastDraws 16 with
        pstate := 0#3, sched := .recurring s.period, rawTemp := none,
        reading := some (convTemp s.cfg.fmt r, convHum s.cfg.fmt s.cfg.sqOrder (convTemp s.cfg.fmt r) h),
        clk := false, ddir := .output, dout := true, trace := tr, timerLog := s.timerLog ++ [.schedRec s.period] }

/-- The lines, trace, result and draws of a micro-operation or a wire command. -/
theorem Effect.ofLines {s t : State} {i : Instr} (n : Nat) (d : Dir) (o : Bool) (tr : List BusEvent)
    (m : Option Value) (hi : i.format = .micro12 ∨ i.format = .wireCmd)
    (ht : t = { s.pastDraws n with clk := false, ddir := d, dout := o, trace := tr, microResult := m }) :
    Effect s i t := ht ▸ .port n false o d tr m hi (.inl rfl)

/-- RESET gives a next state only with its effect. -/
theorem effect_reset {x : FVal} {s t : State} (h : execReset x s = .next t) : Effect s (.reset x) t := by
  unfold execReset at h
  split at h
  · simp at h
  · rename_i p hp
    have he := Effect.reset (s := s) x p hp
    cases hb : s.cfg.armAtConstruction <;>
      simp [hb, softReset_eq, rearm_eq, State.construct, State.disarm, State.withLines] at h he <;>
      exact h ▸ he

/-- SET_CYCLE_PERIOD gives a next state only with its effect. -/
theorem effect_setCyclePeriod {x : FVal} {s t : State} (h : execSetCyclePeriod x s = .next t) :
    Effect s (.setCyclePeriod x) t := by
  unfold execSetCyclePeriod at h
  split at h
  · simp at h
  · rename_i p hp
    dsimp only at h
    split at h
    · rename_i he
      simp [rearm_eq, State.cancel] at h
      exact h ▸ .rearmed x p hp he
    · rename_i he
      simp at h
      exact h ▸ .periodOnly x p hp (by simpa using he)

/-- An accessor gives a next state only with its effect. -/
theorem effect_last {i : Instr} {f : FVal × FVal → Value} {s t : State}
    (hi : i = .lastTemperature ∨ i = .lastHumidity ∨ i = .lastBoth)
    (h : andThen s.published (fun r => .next (s.returnToHost (f r))) = .next t) : Effect s i t := by
  obtain ⟨r, hr, h⟩ := andThen_eq_next.1 h
  injection h with h
  refine h ▸ .returned _ hi ?_
  intro hn
  rw [State.published_eq, hn] at hr
  simp at hr

/-- TICK.S0 and TICK.S3 give a next state only with their effect. -/
theorem effect_command {i : Instr} {c : Byte} {next : BitVec 3} {s t : State} (hc : c.getLsbD 0 = true)
    (hi : i = .tickS0 ∧ next = 1#3 ∨ i = .tickS3 ∧ next = 4#3) (h : beginMeasurement c next s = .next t) :
    Effect s i t := by
  rw [beginMeasurement_eq, hc] at h
  split at h
  · injection h with h
    exact h ▸ .command next _ hi
  · simp at h

/-- TICK.S1 and TICK.S4 give a next state only with their effect. -/
theorem effect_poll {i : Instr} {stay go : BitVec 3} {s t : State}
    (hi : i = .tickS1 ∧ stay = 1#3 ∧ go = 2#3 ∨ i = .tickS4 ∧ stay = 4#3 ∧ go = 5#3)
    (h : pollReady stay go s = .next t) : Effect s i t := by
  rw [pollReady_eq] at h
  split at h
  · simp at h
  · rename_i hd
    split at h
    · injection h with h
      exact h ▸ .polled stay go hi hd
    · simp at h

/-- TICK.S2 gives a next state only with its effect. -/
theorem effect_tickS2 {s t : State} (h : execTickS2 s = .next t) : Effect s .tickS2 t := by
  rw [execTickS2, receiveWord_eq] at h
  split at h
  · injection h with h
    exact h ▸ .rawStored _ _
  · simp at h

/-- TICK.S5 gives a next state only with its effect. -/
theorem effect_tickS5 {s t : State} (h : execTickS5 s = .next t) : Effect s .tickS5 t := by
  unfold execTickS5 at h
  split at h
  · simp at h
  · rename_i r hr
    rw [receiveWord_eq] at h
    split at h
    · injection h with h
      exact h ▸ .published r _ _ hr
    · simp at h

/-- A completed instruction had its effect, and no other. -/
theorem exec_next_effect {i : Instr} {s t : State} (h : exec i s = .next t) : Effect s i t := by
  have hz := State.pastDraws_zero s
  cases i with
  | reset x => exact effect_reset h
  | init => rw [exec_init, execInit, rearm_eq] at h; injection h with h; exact h ▸ .init
  | disable => rw [exec_disable, execDisable] at h; injection h with h; exact h ▸ .disable
  | setCyclePeriod x => exact effect_setCyclePeriod h
  | lastTemperature => exact effect_last (f := fun r => .num r.1) (.inl rfl) h
  | lastHumidity => exact effect_last (f := fun r => .num r.2) (.inr (.inl rfl)) h
  | lastBoth => exact effect_last (f := fun r => .pair r.1 r.2) (.inr (.inr rfl)) h
  | tickS0 => exact effect_command (c := s.cfg.cmdTemp) (by rw [Config.cmdTemp_eq]; rfl) (.inl ⟨rfl, rfl⟩) h
  | tickS1 => exact effect_poll (.inl ⟨rfl, rfl, rfl⟩) h
  | tickS2 => exact effect_tickS2 h
  | tickS3 => exact effect_command (c := s.cfg.cmdHum) (by rw [Config.cmdHum_eq]; rfl) (.inr ⟨rfl, rfl⟩) h
  | tickS4 => exact effect_poll (.inr ⟨rfl, rfl, rfl⟩) h
  | tickS5 => exact effect_tickS5 h
  | pulse =>
    rw [exec_pulse, execPulse, pulse_eq] at h; injection h with h
    exact .ofLines 0 _ _ _ _ (.inl rfl) (by rw [hz, ← h]; rfl)
  | start =>
    rw [exec_start, execStart, start_eq] at h; injection h with h
    exact .ofLines 0 _ _ _ _ (.inl rfl) (by rw [hz, ← h]; rfl)
  | softReset =>
    rw [exec_softReset, execSoftReset, softReset_eq] at h; injection h with h
    exact .ofLines 0 _ _ _ _ (.inl rfl) (by rw [hz, ← h]; rfl)
  | ackByte =>
    rw [exec_ackByte, execAckByte, ackByte_eq] at h; injection h with h
    exact .ofLines 0 _ _ _ _ (.inl rfl) (by rw [hz, ← h]; rfl)
  | terminate =>
    rw [exec_terminate, execTerminate, terminate_eq] at h; injection h with h
    exact .ofLines 0 _ _ _ _ (.inl rfl) (by rw [hz, ← h]; rfl)
  | sendCommand c =>
    rw [exec_sendCommand, execSendCommand, sendCommand_eq] at h
    split at h
    · injection h with h; exact .ofLines 1 _ _ _ _ (.inl rfl) (by rw [← h]; rfl)
    · simp at h
  | receiveByte =>
    rw [exec_receiveByte, execReceiveByte, receiveByte_eq] at h
    split at h
    · injection h with h; exact .ofLines 8 _ _ _ _ (.inl rfl) (by rw [← h]; rfl)
    · simp at h
  | receiveWord =>
    rw [exec_receiveWord, execReceiveWord, receiveWord_eq] at h
    split at h
    · injection h with h; exact .ofLines 16 _ _ _ _ (.inl rfl) (by rw [← h]; rfl)
    · simp at h
  | sampleReady =>
    rw [exec_sampleReady, execSampleReady, sampleReady_eq] at h
    split at h
    · simp at h
    · split at h
      · injection h with h
        have he := Effect.port (s := s) (i := .sampleReady) 1 s.clk s.dout s.ddir
          (s.trace ++ [.sample s.nextDraw]) (some (.flag (!s.nextDraw))) (.inl rfl) (.inr rfl)
        rw [State.pastDraws_succ, State.pastDraws_zero] at he
        exact h ▸ he
      · simp at h
  | convTemp r =>
    rw [exec_convTemp, execConvTemp] at h; injection h with h
    have he := Effect.port (s := s) (i := .convTemp r) 0 s.clk s.dout s.ddir s.trace
      (some (.num (convTemp s.cfg.fmt r))) (.inl rfl) (.inr rfl)
    rw [hz] at he
    exact h ▸ he
  | convHum x n =>
    rw [exec_convHum, execConvHum] at h; injection h with h
    have he := Effect.port (s := s) (i := .convHum x n) 0 s.clk s.dout s.ddir s.trace
      (some (.num (convHum s.cfg.fmt s.cfg.sqOrder x n))) (.inl rfl) (.inr rfl)
    rw [hz] at he
    exact h ▸ he
  | measureT =>
    rw [exec_measureT, execMeasureT, measure_eq] at h
    split at h
    · injection h with h; exact .ofLines 1 _ _ _ _ (.inr rfl) (by rw [← h]; rfl)
    · simp at h
  | measureRh =>
    rw [exec_measureRh, execMeasureRh, measure_eq] at h
    split at h
    · injection h with h; exact .ofLines 1 _ _ _ _ (.inr rfl) (by rw [← h]; rfl)
    · simp at h

end Sys2Proof.Machine
end

