-- ==== Sys2Proof/Laws/Fetch.lean ====
section
/-! SUPPORT. What the fetch can give, and what a step can therefore do. -/

namespace Sys2Proof.Machine

/-- An admitted word: it decodes, may run, is well formed, and the state is unchanged. -/
theorem admitWord_next {r : Request} {s : State} {p : Option Instr × State} (h : admitWord r s = .next p) :
    ∃ i, decode r = .ok i ∧ mayRun s.constructed i = true ∧ i.wellFormed s.cfg.fmt = true
      ∧ p = (some i, s) := by
  unfold admitWord at h
  split at h
  · rename_i e _
    cases e <;> simp [stopOf] at h
  · rename_i i hd
    split at h
    · rename_i hm
      split at h
      · rename_i hw
        injection h with h
        exact ⟨i, hd, hm, hw, h.symm⟩
      · simp at h
    · simp at h

/-- A word the ports admit: they are open, and the word is admitted. -/
theorem admitPort_next {r : Request} {s : State} {p : Option Instr × State} (h : admitPort r s = .next p) :
    s.ports = true ∧ admitWord r s = .next p := by
  unfold admitPort at h
  split at h
  · rename_i hp
    exact ⟨hp, h⟩
  · simp at h

/-- What runs next, and in which state: a host word, a tick of the pending schedule (fired from the agenda or,
with an empty one, by itself), a SENSOR line, or a word of the model's open ports. -/
theorem fetch_next_cases {s : State} {p : Option Instr × State} (h : fetch s = .next p) :
    s.marked = false ∧
    ((∃ op x rest, s.agenda = .host op x :: rest ∧
        admitWord (.host op x) { s with agenda := rest } = .next p)
    ∨ (∃ rest, s.agenda = .fire :: rest ∧ s.timerReady = true ∧
        admitWord (.tick s.pstate) (State.enterTick { s with agenda := rest }) = .next p)
    ∨ (s.agenda = [] ∧ s.script = false ∧ s.timerReady = true ∧
        admitWord (.tick s.pstate) s.enterTick = .next p)
    ∨ (∃ vs rest, s.agenda = .sensor vs :: rest ∧
        p = (none, { s with agenda := rest, draws := s.draws ++ vs }))
    ∨ (∃ u t n rest, s.agenda = .micro u t n :: rest ∧ s.ports = true ∧
        admitWord (.micro u t n) { s with agenda := rest } = .next p)
    ∨ (∃ c rest, s.agenda = .wire c :: rest ∧ s.ports = true ∧
        admitWord (.wire c) { s with agenda := rest } = .next p)) := by
  unfold fetch at h
  split at h
  · simp at h
  · rename_i hm
    refine ⟨by simpa using hm, ?_⟩
    split at h
    · rename_i ha
      unfold fetchIdle at h
      split at h
      · simp at h
      · rename_i hsc
        split at h
        · rename_i ht
          unfold fireTick at h
          rw [if_pos ht] at h
          exact .inr (.inr (.inl ⟨ha, by simpa using hsc, ht, h⟩))
        · simp at h
    · rename_i e rest ha
      cases e with
      | host op x => exact .inl ⟨op, x, rest, ha, h⟩
      | fire =>
        simp only [react] at h
        unfold fireTick at h
        split at h
        · rename_i ht
          exact .inr (.inl ⟨rest, ha, ht, h⟩)
        · simp at h
      | sensor vs =>
        simp only [react] at h
        injection h with h
        exact .inr (.inr (.inr (.inl ⟨vs, rest, ha, h.symm⟩)))
      | micro u t n => exact .inr (.inr (.inr (.inr (.inl ⟨u, t, n, rest, ha, admitPort_next h⟩))))
      | wire c => exact .inr (.inr (.inr (.inr (.inr ⟨c, rest, ha, admitPort_next h⟩))))

/-- A step that ends: it took a SENSOR line, or it ran the instruction the fetch gave. -/
theorem step_next_cases {s t : State} (h : step s = .next t) :
    fetch s = .next (none, t) ∨ ∃ i u, fetch s = .next (some i, u) ∧ exec i u = .next t := by
  unfold step at h
  rw [andThen_eq_next] at h
  obtain ⟨⟨o, u⟩, hf, hr⟩ := h
  cases o with
  | none =>
    simp only [runFetched] at hr
    injection hr with hr
    exact .inl (hr ▸ hf)
  | some i => exact .inr ⟨i, u, hf, hr⟩

/-- Where the fetch stops, the step stops in the same way. -/
theorem step_of_fetch_refused {s : State} {r : Refusal} (h : fetch s = .refused r) : step s = .refused r := by
  unfold step; rw [h]; rfl

/-- Where the fetch faults, the step faults in the same way. -/
theorem step_of_fetch_fault {s : State} {k : Fault} (h : fetch s = .fault k) : step s = .fault k := by
  unfold step; rw [h]; rfl

end Sys2Proof.Machine
end

