-- ==== Sys2Proof/Laws/Float.lean ====
section
/-! SUPPORT. Every result of the arithmetic is a value of its format (42_conversion.md R160). -/

namespace Sys2Proof.Machine

theorem infMag_lt_signWeight (f : Fmt) : infMag f < signWeight f := by cases f <;> decide

theorem roundMag_le (f : Fmt) (k n : Nat) : roundMag f k n ≤ infMag f := Nat.min_le_left _ _

theorem magOf_lt (f : Fmt) (x : FVal) : magOf f x < signWeight f := by
  cases f <;> exact Nat.mod_lt _ (by decide)

/-- A sign and a magnitude below the sign's weight make a value of the format. -/
theorem packNum_holds (f : Fmt) (neg : Bool) (m : Nat) (h : m < signWeight f) : f.holds (packNum f neg m) = true := by
  cases f with
  | binary64 => rfl
  | binary32 =>
    have h' : m < 2 ^ 31 := h
    unfold packNum signWeight Fmt.holds
    rw [decide_eq_true_eq, BitVec.toNat_ofNat]
    cases neg <;> simp <;> omega

theorem negNum_holds (f : Fmt) (x : FVal) : f.holds (negNum f x) = true :=
  packNum_holds f _ _ (magOf_lt f x)

theorem freeNaN_holds (f : Fmt) (op : FloatOp) (x y : FVal) : f.holds (freeNaN f op x y) = true := by
  refine packNum_holds f _ _ ?_
  generalize (Config.nanBits f op x y).toNat = m
  have h : m % quietBit f < quietBit f := Nat.mod_lt _ (by cases f <;> decide)
  have hs : infMag f + 2 * quietBit f = signWeight f := by cases f <;> rfl
  omega

theorem addFinite_holds (f : Fmt) (x y : FVal) : f.holds (addFinite f x y) = true := by
  have h := infMag_lt_signWeight f
  unfold addFinite
  dsimp only
  split
  · exact packNum_holds f _ _ (by omega)
  · exact packNum_holds f _ _ (Nat.lt_of_le_of_lt (roundMag_le f _ _) h)

/-- A sum is a value of its format when the operands are. -/
theorem addNum_holds (f : Fmt) (op : FloatOp) (x y : FVal) (hx : f.holds x = true) (hy : f.holds y = true) :
    f.holds (addNum f op x y) = true := by
  unfold addNum
  split
  · exact freeNaN_holds f op x y
  · split
    · exact hx
    · split
      · exact hy
      · exact addFinite_holds f x y

/-- A product is a value of its format, whatever the operands. -/
theorem flMul_holds (f : Fmt) (x y : FVal) : f.holds (flMul f x y) = true := by
  have h := infMag_lt_signWeight f
  unfold flMul
  dsimp only
  split
  · exact freeNaN_holds f _ x y
  · split
    · exact packNum_holds f _ _ h
    · exact packNum_holds f _ _ (Nat.lt_of_le_of_lt (roundMag_le f _ _) h)

theorem sqTerm_holds (f : Fmt) (o : SqOrder) (h : FVal) : f.holds (sqTerm f o h) = true := by
  cases o <;> exact flMul_holds f _ _

/-- CONV_TEMP gives a value of the format. -/
theorem convTemp_holds (f : Fmt) (r : Count) : f.holds (convTemp f r) = true :=
  addNum_holds f .sub _ _ (flMul_holds f _ _) (negNum_holds f _)

/-- CONV_HUM gives a value of the format, whatever its operands. -/
theorem convHum_holds (f : Fmt) (o : SqOrder) (t : FVal) (h : Count) : f.holds (convHum f o t h) = true :=
  addNum_holds f .sub _ _
    (addNum_holds f .add _ _ (addNum_holds f .sub _ _ (flMul_holds f _ _) (negNum_holds f _)) (flMul_holds f _ _))
    (negNum_holds f _)

end Sys2Proof.Machine
end

