-- ==== Sys2Proof/Laws/PerInstr.lean ====
section
/-! SUPPORT. Statements for all instructions, one lemma per constructor: each instruction's word stands in the
encoding space its row of the opcode table names. -/

namespace Sys2Proof.Laws.EncodingSpace

/-- The encoded word of `i` stands in the space of `i`'s format (30_encoding.md R70, R75, R76, R79). -/
def Statement (i : Instr) : Prop := (encode i).space = i.format

theorem reset (period0 : FVal) : Statement (.reset period0) := rfl
theorem init : Statement .init := rfl
theorem disable : Statement .disable := rfl
theorem setCyclePeriod (x : FVal) : Statement (.setCyclePeriod x) := rfl
theorem lastTemperature : Statement .lastTemperature := rfl
theorem lastHumidity : Statement .lastHumidity := rfl
theorem lastBoth : Statement .lastBoth := rfl
theorem tickS0 : Statement .tickS0 := rfl
theorem tickS1 : Statement .tickS1 := rfl
theorem tickS2 : Statement .tickS2 := rfl
theorem tickS3 : Statement .tickS3 := rfl
theorem tickS4 : Statement .tickS4 := rfl
theorem tickS5 : Statement .tickS5 := rfl
theorem pulse : Statement .pulse := rfl
theorem start : Statement .start := rfl
theorem softReset : Statement .softReset := rfl
theorem sendCommand (c : Byte) : Statement (.sendCommand c) := rfl
theorem receiveByte : Statement .receiveByte := rfl
theorem ackByte : Statement .ackByte := rfl
theorem terminate : Statement .terminate := rfl
theorem sampleReady : Statement .sampleReady := rfl
theorem receiveWord : Statement .receiveWord := rfl
theorem convTemp (r : Count) : Statement (.convTemp r) := rfl
theorem convHum (t : FVal) (h : Count) : Statement (.convHum t h) := rfl
theorem measureT : Statement .measureT := rfl
theorem measureRh : Statement .measureRh := rfl

end Sys2Proof.Laws.EncodingSpace
end

