-- ==== Sys2Proof/Laws/Steps.lean ====
section
/-! SUPPORT. What a completed step ran: a SENSOR line, a host word, a tick of the pending schedule, or a port word. -/

namespace Sys2Proof.Machine

/-- A host word decodes to a host operation. -/
theorem decode_host_format {op : Byte} {x : FVal} {i : Instr} (h : decode (.host op x) = .ok i) :
    i.format = .host8 := by
  simp only [decode, decodeHost] at h
  split at h <;> simp at h <;> subst h <;> rfl

/-- A micro word decodes to a micro-operation. -/
theorem decode_micro_format {u : BitVec 12} {t : FVal} {n : Count} {i : Instr}
    (h : decode (.micro u t n) = .ok i) : i.format = .micro12 := by
  simp only [decode, decodeMicro, decodePlainMicro] at h
  split at h
  · simp at h; subst h; rfl
  · split at h
    · split at h <;> simp at h <;> subst h <;> rfl
    · simp at h

/-- A wire byte decodes to a wire command. -/
theorem decode_wire_format {c : Byte} {i : Instr} (h : decode (.wire c) = .ok i) : i.format = .wireCmd := by
  simp only [decode, decodeWire] at h
  split at h <;> simp at h <;> subst h <;> rfl

/-- A position selects its own tick (41_sequencer.md R131). -/
theorem decode_tick_cases {code : BitVec 3} {i : Instr} (h : decode (.tick code) = .ok i) :
    (code = 0#3 ∧ i = .tickS0) ∨ (code = 1#3 ∧ i = .tickS1) ∨ (code = 2#3 ∧ i = .tickS2)
    ∨ (code = 3#3 ∧ i = .tickS3) ∨ (code = 4#3 ∧ i = .tickS4) ∨ (code = 5#3 ∧ i = .tickS5) := by
  simp only [decode, decodeTick] at h
  split at h <;> simp at h <;> rename_i hc <;> subst h
  · exact .inl ⟨BitVec.eq_of_toNat_eq hc, rfl⟩
  · exact .inr (.inl ⟨BitVec.eq_of_toNat_eq hc, rfl⟩)
  · exact .inr (.inr (.inl ⟨BitVec.eq_of_toNat_eq hc, rfl⟩))
  · exact .inr (.inr (.inr (.inl ⟨BitVec.eq_of_toNat_eq hc, rfl⟩)))
  · exact .inr (.inr (.inr (.inr (.inl ⟨BitVec.eq_of_toNat_eq hc, rfl⟩))))
  · exact .inr (.inr (.inr (.inr (.inr ⟨BitVec.eq_of_toNat_eq hc, rfl⟩))))

/-- What a completed step ran, and in which state. -/
theorem step_next_runs {s t : State} (h : step s = .next t) :
    s.marked = false ∧
    ((∃ vs rest, s.agenda = .sensor vs :: rest ∧ t = { s with agenda := rest, draws := s.draws ++ vs })
    ∨ (∃ op x rest i, s.agenda = .host op x :: rest ∧ decode (.host op x) = .ok i ∧
        mayRun s.constructed i = true ∧ Effect { s with agenda := rest } i t)
    ∨ (∃ rest i, (s.agenda = .fire :: rest ∨ s.agenda = [] ∧ rest = []) ∧ s.timerReady = true ∧
        decode (.tick s.pstate) = .ok i ∧ Effect { s with agenda := rest, sched := s.sched.afterFiring } i t)
    ∨ (∃ e rest i, s.agenda = e :: rest ∧ e.ofBlock = false ∧ s.ports = true ∧
        (i.format = .micro12 ∨ i.format = .wireCmd) ∧ Effect { s with agenda := rest } i t)) := by
  rcases step_next_cases h with hf | ⟨i, u, hf, he⟩
  · obtain ⟨hm, hc⟩ := fetch_next_cases hf
    refine ⟨hm, ?_⟩
    rcases hc with ⟨op, x, rest, ha, hw⟩ | ⟨rest, ha, ht, hw⟩ | ⟨ha, hs, ht, hw⟩ | ⟨vs, rest, ha, hp⟩
      | ⟨u, x, n, rest, ha, hp, hw⟩ | ⟨c, rest, ha, hp, hw⟩
    case inr.inr.inr.inl =>
      injection hp with _ hp
      exact .inl ⟨vs, rest, ha, hp⟩
    all_goals
      obtain ⟨i, _, _, _, hn⟩ := admitWord_next hw
      simp at hn
  · obtain ⟨hm, hc⟩ := fetch_next_cases hf
    refine ⟨hm, ?_⟩
    rcases hc with ⟨op, x, rest, ha, hw⟩ | ⟨rest, ha, ht, hw⟩ | ⟨ha, hs, ht, hw⟩ | ⟨vs, rest, ha, hp⟩
      | ⟨u, x, n, rest, ha, hp, hw⟩ | ⟨c, rest, ha, hp, hw⟩
    pick_goal 4
    · simp at hp
    all_goals
      obtain ⟨j, hd, hr, _, hn⟩ := admitWord_next hw
      injection hn with h1 h2
      injection h1 with h1
      subst h1 h2
      have he := exec_next_effect he
    · exact .inr (.inl ⟨op, x, rest, i, ha, hd, hr, he⟩)
    · exact .inr (.inr (.inl ⟨rest, i, .inl ha, ht, hd, he⟩))
    · have hu : s.enterTick = { s with agenda := [], sched := s.sched.afterFiring } := by
        simp [State.enterTick, ← ha]
      exact .inr (.inr (.inl ⟨[], i, .inr ⟨ha, rfl⟩, ht, hd, hu ▸ he⟩))
    · exact .inr (.inr (.inr ⟨_, rest, i, ha, rfl, hp, .inl (decode_micro_format hd), he⟩))
    · exact .inr (.inr (.inr ⟨_, rest, i, ha, rfl, hp, .inr (decode_wire_format hd), he⟩))

/-- Where a port word is to come and the ports are unused, they are closed. -/
theorem State.portsUnused_cons {s : State} {e : Stimulus} {rest : List Stimulus} (h : s.portsUnused)
    (ha : s.agenda = e :: rest) (he : e.ofBlock = false) : s.ports = false := by
  rcases h with h | h
  · exact h
  · rw [ha] at h
    simp [he] at h

/-- The ports stay unused when a stimulus leaves the agenda. -/
theorem State.portsUnused_tail {s : State} {e : Stimulus} {rest : List Stimulus} (h : s.portsUnused)
    (ha : s.agenda = e :: rest) : s.ports = false ∨ rest.all Stimulus.ofBlock = true := by
  rcases h with h | h
  · exact .inl h
  · rw [ha, List.all_cons, Bool.and_eq_true] at h
    exact .inr h.2

end Sys2Proof.Machine
end

