-- ==== Sys2Proof/Tests/Slice0.lean ====
section
/-! SUPPORT. Tests of single words and single steps against the spec's own tables, and a witness for the
hypotheses of every statement. -/

namespace Sys2Proof.Tests

open Sys2Proof Sys2Proof.Machine

/-! ### Helpers -/

/-- After RESET, in a script, with these values queued for the next samples. -/
def queued (vs : List Bool) : State := { State.reset with script := true, draws := vs }

/-- A block in position `code` with a one-shot pending, DATA an input, and these values queued. -/
def inPosition (code : BitVec 3) (vs : List Bool) : State :=
  { queued vs with pstate := code, sched := .once 10000, ddir := .input }

/-- A block the host has disabled, in position S3 with a raw temperature (95_test_vectors.md section 3.5). -/
def disabledAtS3 : State :=
  { State.reset with enabled := false, sched := .none, pstate := 3#3, rawTemp := some 6500#16 }

/-- What the other agents do next. -/
def facing (lines : List Stimulus) : State := { State.reset with agenda := lines }

/-- The same with the model's own ports open (log 5). -/
def onPorts (lines : List Stimulus) : State := { facing lines with ports := true }

/-- The state an instruction leaves, its mark included. -/
def after (i : Instr) (s : State) : State := s.settle (exec i s)

/-- The event codes a state has added to the trace after RESET (30_encoding.md R82). -/
def newCodes (s : State) : List Nat := (s.trace.drop 40).map busEventCode

/-- The instruction a raw word stands for, if any. -/
def decoded (r : Request) : Option Instr := (decode r).toOption

/-- The sixteen bits of a count, most significant first. -/
def bitsOf (c : Count) : List Bool :=
  bitsMsbFirst (c.extractLsb' 8 8) 8 ++ bitsMsbFirst (c.extractLsb' 0 8) 8

/-! ### Words from the encoding tables (30_encoding.md R71, R74, R77, R79) -/

theorem test_word_reset : decoded (.host 0b00000001#8 0x4000000000000000#64) = some (.reset 0x4000000000000000#64) := by
  decide
theorem test_word_init : decoded (.host 0b00000010#8 0#64) = some .init := by decide
theorem test_word_disable : decoded (.host 0b00000011#8 0#64) = some .disable := by decide
theorem test_word_setCyclePeriod :
    decoded (.host 0b00000100#8 0x3FE0000000000000#64) = some (.setCyclePeriod 0x3FE0000000000000#64) := by decide
theorem test_word_lastTemperature : decoded (.host 0b00001000#8 0#64) = some .lastTemperature := by decide
theorem test_word_lastHumidity : decoded (.host 0b00001001#8 0#64) = some .lastHumidity := by decide
theorem test_word_lastBoth : decoded (.host 0b00001010#8 0#64) = some .lastBoth := by decide
theorem test_word_tickS0 : decoded (.tick 0b000#3) = some .tickS0 := by decide
theorem test_word_tickS1 : decoded (.tick 0b001#3) = some .tickS1 := by decide
theorem test_word_tickS2 : decoded (.tick 0b010#3) = some .tickS2 := by decide
theorem test_word_tickS3 : decoded (.tick 0b011#3) = some .tickS3 := by decide
theorem test_word_tickS4 : decoded (.tick 0b100#3) = some .tickS4 := by decide
theorem test_word_tickS5 : decoded (.tick 0b101#3) = some .tickS5 := by decide
theorem test_word_pulse : decoded (.micro 0b000000000000#12 0#64 0#16) = some .pulse := by decide
theorem test_word_start : decoded (.micro 0b000100000000#12 0#64 0#16) = some .start := by decide
theorem test_word_softReset : decoded (.micro 0b001000000000#12 0#64 0#16) = some .softReset := by decide
theorem test_word_sendCommand :
    decoded (.micro 0b001100000011#12 0#64 0#16) = some (.sendCommand 0x03#8) := by decide
theorem test_word_sendCommand_ones :
    decoded (.micro 0b001111111111#12 0#64 0#16) = some (.sendCommand 0xFF#8) := by decide
theorem test_word_receiveByte : decoded (.micro 0b010000000000#12 0#64 0#16) = some .receiveByte := by decide
theorem test_word_ackByte : decoded (.micro 0b010100000000#12 0#64 0#16) = some .ackByte := by decide
theorem test_word_terminate : decoded (.micro 0b011000000000#12 0#64 0#16) = some .terminate := by decide
theorem test_word_sampleReady : decoded (.micro 0b011100000000#12 0#64 0#16) = some .sampleReady := by decide
theorem test_word_receiveWord : decoded (.micro 0b100000000000#12 0#64 0#16) = some .receiveWord := by decide
theorem test_word_convTemp : decoded (.micro 0b100100000000#12 0#64 6500#16) = some (.convTemp 6500#16) := by decide
theorem test_word_convHum : decoded (.micro 0b101000000000#12 0x4039000000000000#64 5000#16)
    = some (.convHum 0x4039000000000000#64 5000#16) := by decide
theorem test_word_measureT : decoded (.wire 0b00000011#8) = some .measureT := by decide
theorem test_word_measureRh : decoded (.wire 0b00000101#8) = some .measureRh := by decide

/-- 95_test_vectors.md section 3.1: reserved words of each space. -/
theorem test_words_reserved :
    decoded (.host 0x00#8 0#64) = none ∧ decoded (.host 0x05#8 0#64) = none ∧
    decoded (.host 0x07#8 0#64) = none ∧ decoded (.host 0x0B#8 0#64) = none ∧
    decoded (.host 0xFF#8 0#64) = none ∧ decoded (.micro 0x401#12 0#64 0#16) = none ∧
    decoded (.micro 0xB00#12 0#64 0#16) = none ∧ decoded (.micro 0xF00#12 0#64 0#16) = none ∧
    decoded (.tick 0b110#3) = none ∧ decoded (.tick 0b111#3) = none := by decide

/-- A row's word, as the host numbers it (log 6), and its place before the next step. -/
theorem test_table_words :
    decodeTableWord 8 0x0A = some .lastBoth ∧ decodeTableWord 8 0x05 = some .tickS5 ∧
    decodeTableWord 16 0x305 = some (.sendCommand 0x05#8) ∧ decodeTableWord 8 0xFF = none ∧
    (State.reset.withFetchWord 16 0x305).agenda = [.micro 0x305#12 0#64 0#16] ∧
    (State.reset.withFetchWord 16 0x305).ports = true ∧ State.reset.ports = false := by decide

/-! ### Well-formedness (log 8, log 15) -/

/-- 42_conversion.md R163: in binary32, CONV_HUM's `t` must be a binary32 pattern. -/
theorem test_illFormed_convHum :
    (Instr.convHum 0x100000000#64 0#16).wellFormed .binary32 = false ∧
    (Instr.convHum 0xFFFFFFFF#64 0#16).wellFormed .binary32 = true ∧
    (Instr.convHum 0x100000000#64 0#16).wellFormed .binary64 = true := by decide

/-- The step refuses the ill-formed term by name. -/
theorem test_illFormed_convHum_refused :
    step { onPorts [.micro 0xA00#12 0x100000000#64 0#16] with cfg := { Config.spec with fmt := .binary32 } }
      = .refused .illFormed := by rfl

/-- 30_encoding.md R76: on the block's own closed ports a micro word is refused, and leaves no mark. -/
theorem test_micro_word_refused_while_closed :
    step (facing [.micro 0x000#12 0#64 0#16]) = .refused .portClosed ∧
    (facing [.micro 0x000#12 0#64 0#16]).settle (.refused .portClosed) = facing [.micro 0x000#12 0#64 0#16] :=
  ⟨rfl, rfl⟩

/-! ### Bus primitives (95_test_vectors.md section 3.2) -/

theorem test_pulse : newCodes (after .pulse State.reset) = [5, 7, 4, 7] := by decide
theorem test_start : newCodes (after .start State.reset) = [0, 3, 7, 5, 7, 2, 7, 4, 7, 5, 7, 3, 7, 4, 7] := by decide
theorem test_softReset :
    newCodes (after .softReset State.reset) = [0, 3, 4, 7] ++ (List.replicate 9 [5, 7, 4, 7]).flatten := by decide
theorem test_sendCommand_03 : newCodes (after (.sendCommand 0x03#8) (queued [false])) =
    [0, 2, 7, 5, 7, 4, 7, 2, 7, 5, 7, 4, 7, 2, 7, 5, 7, 4, 7, 2, 7, 5, 7, 4, 7, 2, 7, 5, 7, 4, 7, 2, 7, 5, 7, 4, 7,
      3, 7, 5, 7, 4, 7, 3, 7, 5, 7, 4, 7, 1, 5, 7, 6, 4, 7] := by decide
theorem test_sendCommand_00_lines :
    (after (.sendCommand 0x00#8) (queued [false])).ddir = .input ∧
    (after (.sendCommand 0x00#8) (queued [false])).dout = false := by decide
theorem test_receiveByte : (after .receiveByte (queued [true, false, false, true, true, false, true, false])).microResult
    = some (.byte 0x9A#8) := by decide
theorem test_ackByte : newCodes (after .ackByte State.reset) = [0, 2, 7, 5, 7, 4, 7, 1] ∧
    (after .ackByte State.reset).dout = false := by decide
theorem test_terminate : newCodes (after .terminate { State.reset with dout := false }) = [0, 3, 7, 5, 7, 4, 7] ∧
    (after .terminate { State.reset with dout := false }).dout = true := by decide
theorem test_sampleReady_low : (after .sampleReady (inPosition 1#3 [false])).microResult = some (.flag true) := by
  decide
theorem test_sampleReady_driven : (after .sampleReady (queued [false])).fault = some .badLineMode := by decide
theorem test_receiveWord : (after .receiveWord (queued (bitsOf 0x1964#16))).microResult = some (.word 6500#16) ∧
    (newCodes (after .receiveWord (queued (bitsOf 0x1964#16)))).length = 97 := by decide +kernel
theorem test_measureT : (newCodes (after .measureT (queued [true]))).length = 70 ∧
    (newCodes (after .measureT (queued [true]))).take 16 = [0, 3, 7, 5, 7, 2, 7, 4, 7, 5, 7, 3, 7, 4, 7, 0] := by decide
/-- 95_test_vectors.md W9: the bits of 0x05 on the wire. -/
theorem test_measureRh : (newCodes (after .measureRh (queued [true]))).drop 15 =
    [0, 2, 7, 5, 7, 4, 7, 2, 7, 5, 7, 4, 7, 2, 7, 5, 7, 4, 7, 2, 7, 5, 7, 4, 7, 2, 7, 5, 7, 4, 7, 3, 7, 5, 7, 4, 7,
      2, 7, 5, 7, 4, 7, 3, 7, 5, 7, 4, 7, 1, 5, 7, 6, 4, 7] := by decide

/-! ### Ticks (95_test_vectors.md section 3.3) -/

theorem test_tickS0 : (after .tickS0 (queued [true])).pstate = 1#3 ∧
    (after .tickS0 (queued [true])).sched = .once 10000 ∧
    (newCodes (after .tickS0 (queued [true]))).length = 70 := by decide
theorem test_tickS1_ready : (after .tickS1 (inPosition 1#3 [false])).pstate = 2#3 ∧
    (after .tickS1 (inPosition 1#3 [false])).sched = .once 1 := by decide
theorem test_tickS1_stays : (after .tickS1 (inPosition 1#3 [true])).pstate = 1#3 ∧
    (after .tickS1 (inPosition 1#3 [true])).sched = .once 10000 := by decide
theorem test_tickS2 : (after .tickS2 (inPosition 2#3 (bitsOf 0xFFFF#16))).rawTemp = some 65535#16 ∧
    (after .tickS2 (inPosition 2#3 (bitsOf 0xFFFF#16))).sched = .once 1 := by decide
theorem test_tickS3 : (after .tickS3 (queued [false])).pstate = 4#3 ∧
    (after .tickS3 (queued [false])).sched = .once 10000 := by decide
theorem test_tickS4_ready : (after .tickS4 (inPosition 4#3 [false])).pstate = 5#3 := by decide
theorem test_tickS4_stays : (after .tickS4 (inPosition 4#3 [true])).pstate = 4#3 := by decide
theorem test_tickS5 :
    (after .tickS5 { inPosition 5#3 (bitsOf 5000#16) with rawTemp := some 6500#16 }).reading
      = some (0x4039000000000000#64, 0x4060100000000000#64) := by decide +kernel
theorem test_tickS5_extreme :
    (after .tickS5 { inPosition 5#3 (bitsOf 0#16) with rawTemp := some 65535#16 }).reading
      = some (0x40833ACCCCCCCCCD#64, 0x3FFE74BC6A7EF9DC#64) := by decide +kernel

/-! ### Conversion (95_test_vectors.md section 3.4) -/

theorem test_convTemp_inexact : (after (.convTemp 6501#16) State.reset).microResult
    = some (.num 0x4039028F5C28F5C4#64) := by decide +kernel
theorem test_convTemp_binary32 : convTemp .binary32 4001#16 = 0x3C23D000#64 ∧
    convTemp .binary32 65535#16 = 0x4419D666#64 := by decide +kernel
theorem test_convHum_corners : convHum .binary64 .productFirst 0xC044000000000000#64 65535#16 = 0xC0C2FA6728B6D86E#64 ∧
    convHum .binary64 .coefFirst 0x40833ACCCCCCCCCD#64 15666#16 = 0x40858883DF889136#64 := by decide +kernel
theorem test_convHum_binary32 : convHum .binary32 .productFirst 0x41C80000#64 1#16 = 0xC07D687F#64 ∧
    convHum .binary32 .productFirst (convTemp .binary32 0#16) 65535#16 = 0xC617D339#64 := by decide +kernel
/-- The two groupings differ at (0, 133). -/
theorem test_sqOrder_matters : convHum .binary64 .productFirst 0xC044000000000000#64 133#16
    ≠ convHum .binary64 .coefFirst 0xC044000000000000#64 133#16 := by decide +kernel

/-! ### Host operations (95_test_vectors.md section 3.5) -/

theorem test_clamp_corners :
    clamp Config.spec 0x7FF8000000000000#64 = none ∧ clamp Config.spec 0x7FF0000000000000#64 = none ∧
    clamp Config.spec 0xFFF0000000000000#64 = some 0x4000000000000000#64 ∧
    clamp Config.spec 0x8000000000000000#64 = some 0x4000000000000000#64 ∧
    clamp Config.spec 0x3FFFFFFFFFFFFFFF#64 = some 0x4000000000000000#64 ∧
    clamp Config.spec 0x4000000000000001#64 = some 0x4000000000000001#64 ∧
    clamp Config.spec 0x7FEFFFFFFFFFFFFF#64 = some 0x7FEFFFFFFFFFFFFF#64 := by decide

/-- 70_reset_and_hazards.md R232: RESET from before construction leaves the state after reset. -/
theorem test_reset_leaves_the_reset_state :
    after (.reset 0x3FE0000000000000#64) disabledAtS3.unbuilt = State.reset := by decide
theorem test_reset_unarmed :
    (after (.reset 0x4008000000000000#64)
      { State.reset with cfg := { Config.spec with armAtConstruction := false } }).sched = .none := by decide
theorem test_init_rearms : (after .init disabledAtS3).rawTemp = none ∧
    (after .init disabledAtS3).sched = .recurring 0x4000000000000000#64 ∧
    (newCodes (after .init disabledAtS3)).length = 40 := by decide
theorem test_disable : (after .disable (inPosition 1#3 [])).sched = .none ∧
    (after .disable (inPosition 1#3 [])).pstate = 1#3 := by decide
/-- 95_test_vectors.md W6. -/
theorem test_setCyclePeriod_enabled :
    (after (.setCyclePeriod 0x4014000000000000#64) (inPosition 2#3 [])).pstate = 0#3 ∧
    (after (.setCyclePeriod 0x4014000000000000#64) (inPosition 2#3 [])).timerLog.drop 1
      = [.cancel, .schedRec 0x4014000000000000#64] := by decide
theorem test_setCyclePeriod_disabled :
    (after (.setCyclePeriod 0x3FE0000000000000#64) { disabledAtS3 with period := 0x4014000000000000#64 }).period
      = 0x4000000000000000#64 ∧
    newCodes (after (.setCyclePeriod 0x3FE0000000000000#64) disabledAtS3) = [] := by decide
theorem test_lastTemperature : (after .lastTemperature
    { State.reset with reading := some (0x4039000000000000#64, 0x4060100000000000#64) }).returns
      = [.num 0x4039000000000000#64] := by decide
theorem test_lastHumidity : (after .lastHumidity
    { State.reset with reading := some (0x4039000000000000#64, 0x4060100000000000#64) }).returns
      = [.num 0x4060100000000000#64] := by decide
theorem test_lastBoth : (after .lastBoth
    { State.reset with reading := some (0x4039000000000000#64, 0x4060100000000000#64) }).returns
      = [.pair 0x4039000000000000#64 0x4060100000000000#64] := by decide
theorem test_last_before_publication : (after .lastBoth State.reset).fault = some .readingUnwritten := by decide

/-! ### Steps -/

/-- 95_test_vectors.md P7: a reserved host word sets the mark, and no step follows. -/
theorem test_reserved_word_marks :
    (let s := facing [.host 0x05#8 0#64]; (s.settle (step s)).refused) = true ∧
    step { State.reset with refused := true } = .refused .halted := ⟨by decide, rfl⟩
/-- 95_test_vectors.md P6: before construction INIT is refused. -/
theorem test_init_before_construction :
    (runScript State.reset [.host 0x02#8 0#64]).refused = true := by decide
/-- 41_sequencer.md R130: the firing consumes the one-shot before the tick requests the next. -/
theorem test_fire_in_S1 :
    (let s := { inPosition 1#3 [false] with agenda := [.fire] }; (s.settle (step s)).sched) = .once 1 := by decide

/-! ### Witnesses: the hypotheses of each statement hold together somewhere, at the edges of each clause -/

theorem witness_DecodedWordsAreTheEncodersWords :
    decode (.host 0x02#8 7#64) = .ok .init ∧ decode (.micro 0x3FF#12 1#64 2#16) = .ok (.sendCommand 0xFF#8) ∧
    decode (.tick 5#3) = .ok .tickS5 ∧ decode (.wire 0x05#8) = .ok .measureRh := ⟨rfl, rfl, rfl, rfl⟩

theorem witness_EveryWordIsOneOperationOrReserved :
    0x0A ∈ [1, 2, 3, 4, 8, 9, 10] ∧ 0x0B ∉ [1, 2, 3, 4, 8, 9, 10] ∧
    0x3FF / 256 = 3 ∧ (0xA00 / 256 ≤ 10 ∧ 0xA00 % 256 = 0) ∧ ¬ (0xA01 / 256 ≤ 10 ∧ 0xA01 % 256 = 0) ∧
    ¬ (0xB00 / 256 ≤ 10) ∧ (5#3).toNat ≤ 5 ∧ ¬ (6#3).toNat ≤ 5 := by decide

theorem witness_StepRunsTheHostOperation :
    let s := facing [.host 0x0A#8 0#64, .fire]
    s.marked = false ∧ s.constructed = true ∧ s.agenda = .host 0x0A#8 0#64 :: [.fire] ∧
    decode (.host 0x0A#8 0#64) = .ok .lastBoth ∧ Instr.lastBoth.wellFormed s.cfg.fmt = true :=
  ⟨rfl, rfl, rfl, rfl, rfl⟩

theorem witness_StepFiresTheTickOfThePosition_agenda :
    let s := { inPosition 5#3 [] with agenda := [.fire] }
    s.marked = false ∧ s.timerReady = true ∧ s.agenda = .fire :: [] ∧ decode (.tick s.pstate) = .ok .tickS5 :=
  ⟨rfl, rfl, rfl, rfl⟩

theorem witness_StepFiresTheTickOfThePosition_idle :
    State.reset.marked = false ∧ State.reset.timerReady = true ∧ State.reset.agenda = [] ∧
    State.reset.script = false ∧ decode (.tick State.reset.pstate) = .ok .tickS0 := ⟨rfl, rfl, rfl, rfl, rfl⟩

theorem witness_StepFiresTheTickOfThePosition_nothing_pending :
    let s := { disabledAtS3 with agenda := [.fire] }
    s.marked = false ∧ s.timerReady = false ∧ s.agenda = .fire :: [] := ⟨rfl, rfl, rfl⟩

theorem witness_StepTakesPortWordsAndSensorLines_micro :
    let s := { onPorts [.micro 0xA00#12 0xFFFFFFFF#64 1#16] with cfg := { Config.spec with fmt := .binary32 } }
    s.marked = false ∧ s.constructed = true ∧ s.ports = true ∧ s.agenda = .micro 0xA00#12 0xFFFFFFFF#64 1#16 :: [] ∧
    decode (.micro 0xA00#12 0xFFFFFFFF#64 1#16) = .ok (.convHum 0xFFFFFFFF#64 1#16) ∧
    (Instr.convHum 0xFFFFFFFF#64 1#16).wellFormed s.cfg.fmt = true := ⟨rfl, rfl, rfl, rfl, rfl, rfl⟩

theorem witness_StepTakesPortWordsAndSensorLines_wire :
    let s := onPorts [.wire 0x05#8]
    s.marked = false ∧ s.constructed = true ∧ s.ports = true ∧ s.agenda = .wire 0x05#8 :: [] ∧
    decode (.wire 0x05#8) = .ok .measureRh ∧ Instr.measureRh.wellFormed s.cfg.fmt = true :=
  ⟨rfl, rfl, rfl, rfl, rfl, rfl⟩

theorem witness_StepTakesPortWordsAndSensorLines_sensor :
    let s := facing [.sensor [true, false], .fire]
    s.marked = false ∧ s.agenda = .sensor [true, false] :: [.fire] := ⟨rfl, rfl⟩

theorem witness_ReservedHostWordIsRefused :
    (∀ op ∈ [0x00#8, 0x05#8, 0x07#8, 0x0B#8, 0xFF#8],
      op.toNat = 0 ∨ (5 ≤ op.toNat ∧ op.toNat ≤ 7) ∨ 0x0B ≤ op.toNat) ∧
    (facing [.host 0x0B#8 0#64]).marked = false ∧
    (facing [.host 0x0B#8 0#64]).agenda = .host 0x0B#8 0#64 :: [] := ⟨by decide, rfl, rfl⟩

theorem witness_ReservedMicroWordFaults :
    (∀ u ∈ [0xB00#12, 0xF00#12, 0x001#12, 0x401#12, 0xAFF#12],
      11 ≤ u.toNat / 256 ∨ (u.toNat / 256 ≠ 3 ∧ u.toNat % 256 ≠ 0)) ∧
    (onPorts [.micro 0x401#12 0#64 0#16]).marked = false ∧ (onPorts [.micro 0x401#12 0#64 0#16]).ports = true ∧
    (onPorts [.micro 0x401#12 0#64 0#16]).agenda = .micro 0x401#12 0#64 0#16 :: [] := ⟨by decide, rfl, rfl, rfl⟩

theorem witness_InvalidStateCodeFaults :
    ∀ code ∈ [6#3, 7#3],
      let s := { inPosition code [] with agenda := [.fire] }
      6 ≤ s.pstate.toNat ∧ s.marked = false ∧ s.timerReady = true ∧ s.agenda = .fire :: [] := by decide

theorem witness_InvalidStateCodeFaults_idle :
    ∀ code ∈ [6#3, 7#3],
      let s := { inPosition code [] with script := false }
      6 ≤ s.pstate.toNat ∧ s.marked = false ∧ s.timerReady = true ∧ s.agenda = [] ∧ s.script = false := by decide

theorem witness_BeforeConstructionOnlyResetRuns : 0x02#8 ≠ 0x01#8 ∧ 0x00#8 ≠ 0x01#8 := by decide

theorem witness_MarkedBlockHasNoStep :
    ({ State.reset with fault := some .badPeriod }.fault ≠ none ∨ State.reset.refused = true) ∧
    (State.reset.fault ≠ none ∨ { State.reset with refused := true }.refused = true) ∧
    State.reset.fault = none ∧ { State.reset with fault := some .badState }.fault = some .badState := by decide

theorem witness_QuietBlockHasNoStep_script :
    (queued []).marked = false ∧ (queued []).agenda = [] ∧ (queued []).script = true := ⟨rfl, rfl, rfl⟩

theorem witness_QuietBlockHasNoStep_quiescent :
    disabledAtS3.marked = false ∧ disabledAtS3.agenda = [] ∧ disabledAtS3.script = false ∧
    disabledAtS3.timerReady = false := ⟨rfl, rfl, rfl, rfl⟩

/-- For SendCommandShiftsOutTheByte, MeasureSendsStartAndCommand and the command ticks: one queued value, or none
outside a script. -/
theorem witness_one_draw : (queued [true]).canDraw 1 = true ∧ State.reset.canDraw 1 = true := by decide

/-- For ReceiveByteAssemblesEightSamples. -/
theorem witness_eight_draws :
    (queued (List.replicate 8 true)).canDraw 8 = true ∧ State.reset.canDraw 8 = true := by decide

/-- For ReceiveWordAssemblesSixteenSamples and TickS2StoresTheRawTemperature. -/
theorem witness_sixteen_draws :
    (queued (List.replicate 16 false)).canDraw 16 = true ∧ State.reset.canDraw 16 = true := by decide

/-- For SampleReadyIsOneSample, TickS1PollsForTheTemperature and TickS4PollsForTheHumidity. -/
theorem witness_ready_polls :
    (inPosition 1#3 [false]).ddir = .input ∧ (inPosition 1#3 [false]).canDraw 1 = true ∧
    (inPosition 4#3 [true]).ddir = .input ∧ (inPosition 4#3 [true]).canDraw 1 = true ∧
    State.reset.ddir = .output := by decide

theorem witness_AckValueSteersNothing_tick :
    Instr.tickS3 ∈ [Instr.tickS0, .tickS3, .measureT, .measureRh] ∧
    ∃ t t', exec .tickS3 { queued [] with draws := [false] } = .next t ∧
      exec .tickS3 { queued [] with draws := [true] } = .next t' := ⟨by decide, _, _, rfl, rfl⟩

theorem witness_AckValueSteersNothing_command :
    ∃ t t', exec (.sendCommand 0x00#8) { queued [] with draws := [false] } = .next t ∧
      exec (.sendCommand 0x00#8) { queued [] with draws := [true] } = .next t' := ⟨_, _, rfl, rfl⟩

theorem witness_TickS5PublishesTheReading :
    let s := { inPosition 5#3 (List.replicate 16 false) with rawTemp := some 65535#16 }
    s.rawTemp = some 65535#16 ∧ s.canDraw 16 = true ∧ State.reset.rawTemp = none := by decide

theorem witness_TickWithoutDrawsIsStuck :
    (inPosition 1#3 []).canDraw 1 = false ∧ (inPosition 1#3 []).ddir = .input ∧
    (queued (List.replicate 15 true)).canDraw 16 = false ∧
    { queued (List.replicate 15 true) with rawTemp := some 0#16 }.rawTemp ≠ none := by decide

theorem witness_SixTicksPublishAReading :
    let s := { queued (true :: false :: bitsOf 6500#16 ++ false :: false :: bitsOf 5000#16 ++ [true]) with
      agenda := List.replicate 6 Stimulus.fire ++ [Stimulus.host 0x0A#8 0#64] }
    s.marked = false ∧ s.constructed = true ∧ s.pstate = 0#3 ∧ s.sched ≠ .none ∧
    (bitsOf 6500#16).length = 16 ∧ (bitsOf 5000#16).length = 16 ∧
    s.draws = true :: false :: bitsOf 6500#16 ++ false :: false :: bitsOf 5000#16 ++ [true] ∧
    s.agenda = List.replicate 6 Stimulus.fire ++ [Stimulus.host 0x0A#8 0#64] := by decide

theorem witness_PollingNeverTimesOut :
    ∀ code ∈ [1#3, 4#3],
      let s := { inPosition code [true, true, true, false] with agenda := [.fire, .fire, .fire] }
      s.marked = false ∧ s.constructed = true ∧ (s.pstate = 1#3 ∨ s.pstate = 4#3) ∧ s.sched ≠ .none ∧
      s.ddir = .input ∧ s.draws = List.replicate 3 true ++ [false] ∧ s.agenda = List.replicate 3 .fire ++ [] := by
  decide

theorem witness_ConvTempIsNonDecreasing :
    (4000#16).toNat ≤ (4001#16).toNat ∧ (65535#16).toNat ≤ (65535#16).toNat := by decide

theorem witness_SumsAreRoundedToNearestEven :
    isFiniteNum .binary64 0x7FEFFFFFFFFFFFFF#64 = true ∧ isFiniteNum .binary64 0x8000000000000001#64 = true ∧
    isFiniteNum .binary64 (flAdd .binary64 0x7FEFFFFFFFFFFFFF#64 0x8000000000000001#64) = true ∧
    isFiniteNum .binary64 (flSub .binary64 0x7FEFFFFFFFFFFFFF#64 0x8000000000000001#64) = true ∧
    isFiniteNum .binary32 0x7F7FFFFF#64 = true ∧
    isFiniteNum .binary32 (flSub .binary32 0x7F7FFFFF#64 0x7F7FFFFF#64) = true := by decide +kernel

theorem witness_ProductsAreRoundedToNearestEven :
    isFiniteNum .binary64 0x7FEFFFFFFFFFFFFF#64 = true ∧ isFiniteNum .binary64 0x0000000000000001#64 = true ∧
    isFiniteNum .binary64 (flMul .binary64 0x7FEFFFFFFFFFFFFF#64 0x0000000000000001#64) = true ∧
    isFiniteNum .binary32 0x7F7FFFFF#64 = true ∧ isFiniteNum .binary32 0x3F000000#64 = true ∧
    isFiniteNum .binary32 (flMul .binary32 0x7F7FFFFF#64 0x3F000000#64) = true := by decide +kernel

theorem witness_CountsConvertExactly : 0 ≤ 65535 ∧ 65535 ≤ 65535 := by decide

theorem witness_PeriodIsClampedToTwoSeconds :
    isNaNNum .binary64 0x7FF0000000000001#64 = true ∧ isNaNNum .binary64 0xFFFFFFFFFFFFFFFF#64 = true ∧
    isFiniteNum .binary64 0x7FEFFFFFFFFFFFFF#64 = true ∧ isFiniteNum .binary64 0x3FFFFFFFFFFFFFFF#64 = true ∧
    isFiniteNum .binary64 0x8000000000000000#64 = true := by decide

/-- For ResetRebuildsTheBlock and SetCyclePeriodRearmsOnlyWhileEnabled. -/
theorem witness_period_operands :
    clamp State.reset.cfg 0x3FE0000000000000#64 = some 0x4000000000000000#64 ∧
    clamp State.reset.cfg 0x7FEFFFFFFFFFFFFF#64 = some 0x7FEFFFFFFFFFFFFF#64 ∧ clamp State.reset.cfg 0x7FF0000000000000#64 = none ∧
    State.reset.enabled = true ∧ disabledAtS3.enabled = false := by decide

theorem witness_AccessorsReturnThePublishedReading :
    { State.reset with reading := some (0x4039000000000000#64, 0x4060100000000000#64) }.reading
      = some (0x4039000000000000#64, 0x4060100000000000#64) ∧ State.reset.reading = none := by decide

/-- For OnlyTheirRulesWriteTheDataRegisters, OnlyTheirRulesWriteTheControlFields and
CompletedInstructionsLeaveTheMarks, with every exception met by none of its names. -/
theorem witness_completed_instructions :
    (∃ t, exec .disable disabledAtS3 = .next t) ∧ (∃ t, exec .lastBoth
      { State.reset with reading := some (0#64, 0#64) } = .next t) ∧
    (∃ t, exec .measureT (queued [true]) = .next t) ∧ Instr.lastBoth.format ≠ .tick ∧
    Instr.lastBoth ≠ .tickS2 ∧ Instr.lastBoth ≠ .tickS5 ∧ Instr.lastBoth ≠ .init ∧ Instr.lastBoth ≠ .disable ∧
    (∀ x, Instr.lastBoth ≠ .reset x) ∧ (∀ x, Instr.lastBoth ≠ .setCyclePeriod x) :=
  ⟨⟨_, rfl⟩, ⟨_, rfl⟩, ⟨_, rfl⟩, by decide, by decide, by decide, by decide, by decide,
    fun _ => Instr.noConfusion, fun _ => Instr.noConfusion⟩

/-- A block in the middle of a cycle is sound. -/
theorem witness_block_in_S4 (lines : List Stimulus) :
    ({ inPosition 4#3 [] with rawTemp := some 6500#16, script := false, agenda := lines } : State).Sound :=
  ⟨rfl, by simp [inPosition], rfl, .inl rfl, show legalPeriod Config.period0 by decide, rfl, rfl, trivial⟩

theorem witness_EveryStepKeepsASoundState :
    let s := { inPosition 4#3 [] with rawTemp := some 6500#16, script := false, agenda := [.host 0x02#8 0#64] }
    s.Sound ∧ ∃ t, step s = .next t := ⟨witness_block_in_S4 _, _, rfl⟩

/-- For EveryStepKeepsABlockSoundState. -/
theorem witness_EveryStepKeepsABlockSoundState :
    let s := { inPosition 4#3 [] with rawTemp := some 6500#16, script := false, agenda := [.host 0x03#8 0#64] }
    s.BlockSound ∧ ∃ t, step s = .next t := ⟨⟨witness_block_in_S4 _, rfl, rfl, .inl rfl⟩, _, rfl⟩

theorem witness_UnreachableFaultsNeverArise :
    let s := { inPosition 4#3 [] with
      rawTemp := some 6500#16, script := false, agenda := [.host 0x04#8 0x7FF0000000000000#64] }
    s.BlockSound ∧ step s = .fault .badPeriod := ⟨⟨witness_block_in_S4 _, rfl, rfl, .inl rfl⟩, rfl⟩

theorem witness_UnreachableFaultsNeverArise_reading :
    let s := { inPosition 4#3 [] with rawTemp := some 6500#16, script := false, agenda := [.host 0x08#8 0#64] }
    s.BlockSound ∧ step s = .fault .readingUnwritten := ⟨⟨witness_block_in_S4 _, rfl, rfl, .inl rfl⟩, rfl⟩

/-- Both ways of leaving the ports unused: closed whatever is to come, or open with no port word to come. -/
theorem witness_portsUnused :
    (facing [.micro 0x000#12 0#64 0#16]).portsUnused ∧
    (onPorts [.fire, .sensor [true], .host 0x01#8 0#64]).portsUnused := ⟨.inl rfl, .inr rfl⟩

theorem witness_NoAgentOutsideIssuesAMicroOperation :
    (facing [.micro 0xFFF#12 0#64 0#16]).marked = false ∧ (facing [.micro 0xFFF#12 0#64 0#16]).ports = false ∧
    (facing [.wire 0x03#8]).marked = false ∧ (facing [.wire 0x03#8]).ports = false ∧
    ∃ t, step (onPorts [.micro 0x000#12 0#64 0#16]) = .next t := ⟨rfl, rfl, rfl, rfl, _, rfl⟩

theorem witness_ResetMakesAnyStateSound :
    (∃ t, exec (.reset 0x4000000000000000#64) { inPosition 7#3 [] with agenda := [.fire] } = .next t) ∧
    ({ inPosition 7#3 [] with agenda := [.fire] } : State).portsUnused := ⟨⟨_, rfl⟩, .inl rfl⟩

theorem witness_DisabledBlockStaysSilent :
    let s := { disabledAtS3 with agenda := [.host 0x04#8 0x4014000000000000#64, .host 0x02#8 0#64] }
    s.silent ∧ s.portsUnused ∧ s.armsNext = false ∧ ∃ t, step s = .next t :=
  ⟨⟨rfl, rfl⟩, .inl rfl, rfl, _, rfl⟩

theorem witness_DisabledPositionHasNoEffect :
    let s := { disabledAtS3 with agenda := [.host 0x02#8 0#64] }
    s.silent ∧ s.portsUnused ∧ ∃ t, step s = .next t := ⟨⟨rfl, rfl⟩, .inl rfl, _, rfl⟩

end Sys2Proof.Tests
end

section
/-! PROOFS. The decoder partitions each encoding space (30_encoding.md R84), and a reserved host word is refused (R72). -/

namespace Sys2Proof.Machine

/-! ### Host words (30_encoding.md R71, R72) -/

theorem decode_host_ok {op : Byte} (x : FVal) (h : op.toNat ∈ [1, 2, 3, 4, 8, 9, 10]) :
    ∃ i, decode (.host op x) = .ok i ∧ i.format = .host8 := by
  simp only [decode, decodeHost]
  split
  case h_8 => simp_all
  all_goals exact ⟨_, rfl, rfl⟩

theorem decode_host_reserved {op : Byte} (x : FVal) (h : op.toNat ∉ [1, 2, 3, 4, 8, 9, 10]) :
    decode (.host op x) = .error (.reservedHostWord op) := by
  simp only [decode, decodeHost]
  split
  case h_8 => rfl
  all_goals simp_all

/-! ### Micro words (30_encoding.md R76, R77) -/

@[simp] theorem microOpcode_toNat (u : BitVec 12) : (microOpcode u).toNat = u.toNat / 256 := by
  simp only [microOpcode, BitVec.extractLsb'_toNat, Nat.shiftRight_eq_div_pow]
  omega

@[simp] theorem microImm_toNat (u : BitVec 12) : (microImm u).toNat = u.toNat % 256 := by
  simp [microImm]

theorem microOpcode_eq_three_iff (u : BitVec 12) : microOpcode u = 0x3#4 ↔ u.toNat / 256 = 3 := by
  simp [← BitVec.toNat_inj]

theorem microImm_eq_zero_iff (u : BitVec 12) : microImm u = 0#8 ↔ u.toNat % 256 = 0 := by
  simp [← BitVec.toNat_inj]

/-- A micro word by its opcode and immediate as numbers: SEND_COMMAND takes any immediate, the rest only 0. -/
theorem decode_micro_eq (u : BitVec 12) (t : FVal) (n : Count) :
    decode (.micro u t n) =
      if u.toNat / 256 = 3 then .ok (.sendCommand (microImm u))
      else if u.toNat % 256 = 0 then decodePlainMicro u t n
      else .error (.reservedMicroOp u) := by
  simp only [decode, decodeMicro, microOpcode_eq_three_iff, microImm_eq_zero_iff]

theorem decodePlainMicro_ok {u : BitVec 12} (t : FVal) (n : Count) (hne : u.toNat / 256 ≠ 3)
    (hle : u.toNat / 256 ≤ 10) : ∃ i, decodePlainMicro u t n = .ok i := by
  rw [← microOpcode_toNat] at hne hle
  unfold decodePlainMicro
  split
  case h_11 => simp only [imp_false] at *; omega
  all_goals exact ⟨_, rfl⟩

theorem decodePlainMicro_reserved {u : BitVec 12} (t : FVal) (n : Count) (h : 10 < u.toNat / 256) :
    decodePlainMicro u t n = .error (.reservedMicroOp u) := by
  rw [← microOpcode_toNat] at h
  unfold decodePlainMicro
  split
  case h_11 => rfl
  all_goals omega

theorem decode_micro_ok {u : BitVec 12} (t : FVal) (n : Count)
    (h : u.toNat / 256 = 3 ∨ (u.toNat / 256 ≤ 10 ∧ u.toNat % 256 = 0)) :
    ∃ i, decode (.micro u t n) = .ok i ∧ i.format = .micro12 := by
  suffices hok : ∃ i, decode (.micro u t n) = .ok i by
    obtain ⟨i, hi⟩ := hok
    exact ⟨i, hi, decode_micro_format hi⟩
  rw [decode_micro_eq]
  split
  · exact ⟨_, rfl⟩
  next hne =>
    obtain ⟨hle, himm⟩ := h.resolve_left hne
    rw [if_pos himm]
    exact decodePlainMicro_ok t n hne hle

theorem decode_micro_reserved {u : BitVec 12} (t : FVal) (n : Count)
    (h : ¬ (u.toNat / 256 = 3 ∨ (u.toNat / 256 ≤ 10 ∧ u.toNat % 256 = 0))) :
    decode (.micro u t n) = .error (.reservedMicroOp u) := by
  obtain ⟨hne, hplain⟩ := not_or.mp h
  rw [decode_micro_eq, if_neg hne]
  split
  next himm => exact decodePlainMicro_reserved t n (by omega)
  · rfl

/-! ### State codes (30_encoding.md R74, R75) -/

theorem decode_tick_ok {code : BitVec 3} (h : code.toNat ≤ 5) :
    ∃ i, decode (.tick code) = .ok i ∧ i.format = .tick := by
  simp only [decode, decodeTick]
  split
  case h_7 => simp only [imp_false] at *; omega
  all_goals exact ⟨_, rfl, rfl⟩

theorem decode_tick_invalid {code : BitVec 3} (h : ¬ code.toNat ≤ 5) :
    decode (.tick code) = .error (.invalidStateCode code) := by
  simp only [decode, decodeTick]
  split
  case h_7 => rfl
  all_goals omega

/-- Settles O3: each space's word is decoded or reserved by the number that selects its operation. -/
theorem everyWordIsOneOperationOrReserved : Obligations.EveryWordIsOneOperationOrReserved := by
  refine ⟨fun op x => ?_, fun u t n => ?_, fun code => ?_⟩
  · split
    next h => exact decode_host_ok x h
    next h => exact decode_host_reserved x h
  · split
    next h => exact decode_micro_ok t n h
    next h => exact decode_micro_reserved t n h
  · split
    next h => exact decode_tick_ok h
    next h => exact decode_tick_invalid h

/-! ### The fetch of a word that is no instruction -/

/-- Without a mark, the fetch takes the head of the agenda. -/
theorem fetch_of_agenda_cons {s : State} {e : Stimulus} {rest : List Stimulus} (hm : s.marked = false)
    (ha : s.agenda = e :: rest) : fetch s = react { s with agenda := rest } e := by
  simp [fetch, hm, ha]

/-- A word that is no instruction stops by what the decoder rejects it as. -/
theorem admitWord_of_decode_error {r : Request} {e : Reject} (s : State) (h : decode r = .error e) :
    admitWord r s = stopOf e := by
  simp [admitWord, h]

/-- Settles O8: the decoder rejects the word, the fetch refuses it, and that refusal sets the mark. -/
theorem reservedHostWordIsRefused : Obligations.ReservedHostWordIsRefused := by
  intro s op x rest hop hm ha
  have hd : decode (.host op x) = .error (.reservedHostWord op) :=
    decode_host_reserved x (by simp only [List.mem_cons, List.not_mem_nil, or_false]; omega)
  have hf : fetch s = .refused (.reservedHostWord op) :=
    (fetch_of_agenda_cons hm ha).trans (admitWord_of_decode_error _ hd)
  have hs : step s = .refused (.reservedHostWord op) := step_of_fetch_refused hf
  exact ⟨hs, by rw [hs]; rfl⟩

end Sys2Proof.Machine
end

section
/-! PROOFS. The bus primitives that drive the lines (40_bus.md R103, R105, R106, R108, R109): the word of each, and the
next state it gives from any state. -/

namespace Sys2Proof.Machine

/-! ### The fields of a micro word (30_encoding.md R76) -/

@[simp] theorem microOpcode_append (op : BitVec 4) (c : Byte) : microOpcode (op ++ c) = op :=
  BitVec.extractLsb'_append_eq_left

@[simp] theorem microImm_append (op : BitVec 4) (c : Byte) : microImm (op ++ c) = c :=
  BitVec.extractLsb'_append_eq_right

/-- Micro-opcode 3 takes any immediate, the byte to send (30_encoding.md R77, R80). -/
theorem decode_micro_sendCommand (c : Byte) (t : FVal) (n : Count) :
    decode (.micro (0x3#4 ++ c) t n) = .ok (.sendCommand c) := by
  simp only [decode, decodeMicro, microOpcode_append, microImm_append, if_true]

/-- Settles O17: the immediate of the word is the byte, and with a value for the ACK slot the line program ends. -/
theorem sendCommandShiftsOutTheByte : Obligations.SendCommandShiftsOutTheByte := by
  refine ⟨decode_micro_sendCommand, fun c s hdraw => ?_⟩
  rw [exec_sendCommand, execSendCommand, sendCommand_eq, if_pos hdraw]
  rfl

/-! ### The primitives that take no sample -/

/-- Settles O14: PULSE takes no sample, so it always ends, with its closed effect on the lines. -/
theorem pulseIsOneClockPulse : Obligations.PulseIsOneClockPulse :=
  ⟨fun _ _ => rfl, fun s => (exec_pulse s).trans (pulse_eq s)⟩

/-- Settles O16: SOFT_RESET takes no sample, and `RESET_PULSES` is 9 in every configuration. -/
theorem softResetDrivesNinePulses : Obligations.SoftResetDrivesNinePulses :=
  ⟨fun _ _ => rfl, fun s => (exec_softReset s).trans (softReset_eq s)⟩

/-- Settles O19: ACK_BYTE takes no sample, so it always ends, with its closed effect on the lines. -/
theorem ackByteDrivesLowThenReleases : Obligations.AckByteDrivesLowThenReleases :=
  ⟨fun _ _ => rfl, fun s => (exec_ackByte s).trans (ackByte_eq s)⟩

/-- Settles O20: TERMINATE takes no sample, so it always ends, with its closed effect on the lines. -/
theorem terminateDrivesHigh : Obligations.TerminateDrivesHigh :=
  ⟨fun _ _ => rfl, fun s => (exec_terminate s).trans (terminate_eq s)⟩

end Sys2Proof.Machine
end

section
/-! PROOFS. The ticks of the sequencer that read the sensor (41_sequencer.md R133, R134, R136, R137): the ready polls, and
the ticks that receive a count. -/

namespace Sys2Proof.Machine

/-! ### The ready polls (41_sequencer.md R133, R136; 40_bus.md R110) -/

theorem State.pastDraw_eq_pastDraws_one (s : State) : s.pastDraw = s.pastDraws 1 := by
  rw [State.pastDraws_succ, State.pastDraws_zero]

/-- Ready is a low sample (40_bus.md R110), and it alone decides the successor and the delay. -/
theorem afterPoll_not (stay go : BitVec 3) (v : Bool) (s : State) :
    afterPoll stay go (!v) s = { s with
      pstate := if v then stay else go
      sched := .once (if v then s.cfg.pollUs else s.cfg.fastUs)
      timerLog := s.timerLog ++ [.schedOnce (if v then s.cfg.pollUs else s.cfg.fastUs)] } := by
  cases v <;> rfl

theorem pollReady_of_input (stay go : BitVec 3) {s : State} (hin : s.ddir = .input) :
    pollReady stay go s = if s.canDraw 1
      then .next { s.pastDraws 1 with
        pstate := if s.nextDraw then stay else go
        sched := .once (if s.nextDraw then s.cfg.pollUs else s.cfg.fastUs)
        trace := s.trace ++ [.sample s.nextDraw]
        timerLog := s.timerLog ++ [.schedOnce (if s.nextDraw then s.cfg.pollUs else s.cfg.fastUs)] }
      else .refused .noDraw := by
  simp only [pollReady_eq, hin, afterPoll_not, State.pastDraw_eq_pastDraws_one]
  rfl

theorem pollReady_of_output (stay go : BitVec 3) {s : State} (hout : s.ddir = .output) :
    pollReady stay go s = .fault .badLineMode := by
  simp only [pollReady_eq, hout]

/-- Settles O26: S1 is the ready poll that stays in S1 or goes on to S2. -/
theorem tickS1PollsForTheTemperature : Obligations.TickS1PollsForTheTemperature := by
  refine ⟨rfl, fun s hin hdraw => ?_, fun s hout => ?_⟩
  · rw [exec_tickS1, execTickS1, pollReady_of_input _ _ hin, if_pos hdraw]
  · rw [exec_tickS1, execTickS1, pollReady_of_output _ _ hout]

/-- Settles O29: S4 is the ready poll that stays in S4 or goes on to S5. -/
theorem tickS4PollsForTheHumidity : Obligations.TickS4PollsForTheHumidity := by
  refine ⟨rfl, fun s hin hdraw => ?_, fun s hout => ?_⟩
  · rw [exec_tickS4, execTickS4, pollReady_of_input _ _ hin, if_pos hdraw]
  · rw [exec_tickS4, execTickS4, pollReady_of_output _ _ hout]

/-! ### The ticks that receive a count (41_sequencer.md R134, R137) -/

/-- TICK.S2 stores the count of its sixteen draws (R134); without them the run is stuck. -/
theorem execTickS2_eq (s : State) :
    execTickS2 s = if s.canDraw 16
      then .next { s.pastDraws 16 with
        pstate := 3#3
        sched := .once s.cfg.fastUs
        rawTemp := some (BitVec.ofNat 16 (natOfBits (s.upcoming 16)))
        clk := false
        ddir := .output
        dout := true
        trace := s.trace ++ receiveWordEvents (s.upcoming 16)
        timerLog := s.timerLog ++ [.schedOnce s.cfg.fastUs] }
      else .refused .noDraw := by
  rw [execTickS2, receiveWord_eq]
  split <;> rfl

/-- TICK.S5 publishes the pair of the raw temperature held and its sixteen draws (R137); without them the run is stuck. -/
theorem execTickS5_of_rawTemp {s : State} {r : Count} (hr : s.rawTemp = some r) :
    execTickS5 s = if s.canDraw 16
      then .next { s.pastDraws 16 with
        pstate := 0#3
        sched := .recurring s.period
        rawTemp := none
        reading := some (convTemp s.cfg.fmt r,
          convHum s.cfg.fmt s.cfg.sqOrder (convTemp s.cfg.fmt r) (BitVec.ofNat 16 (natOfBits (s.upcoming 16))))
        clk := false
        ddir := .output
        dout := true
        trace := s.trace ++ receiveWordEvents (s.upcoming 16)
        timerLog := s.timerLog ++ [.schedRec s.period] }
      else .refused .noDraw := by
  simp only [execTickS5, hr, receiveWord_eq]
  split <;> rfl

theorem execTickS5_of_unwritten {s : State} (hr : s.rawTemp = none) :
    execTickS5 s = .fault .rawTempUnwritten := by
  simp only [execTickS5, hr]

/-- Settles O27: the count RECEIVE_WORD gives is stored as it is. -/
theorem tickS2StoresTheRawTemperature : Obligations.TickS2StoresTheRawTemperature := by
  refine ⟨rfl, fun s hdraw => ?_⟩
  rw [exec_tickS2, execTickS2_eq, if_pos hdraw]

/-- Settles O30: the raw temperature held decides between the fault and the publication. -/
theorem tickS5PublishesTheReading : Obligations.TickS5PublishesTheReading := by
  refine ⟨rfl, fun s r hr hdraw => ?_, fun s hr => ?_⟩
  · rw [exec_tickS5, execTickS5_of_rawTemp hr, if_pos hdraw]
  · rw [exec_tickS5, execTickS5_of_unwritten hr]

end Sys2Proof.Machine
end

section
/-! PROOFS. The conversion of a count is exact (42_conversion.md R166): a value's pattern is read back as its sign and
magnitude, and rounding keeps a magnitude whose shifted-out bits are zero. -/

namespace Sys2Proof.Machine

/-! ### The fields of a packed value -/

/-- A sign and a magnitude below the sign's weight fill the 64 bits without a carry. -/
theorem packNum_toNat (f : Fmt) (neg : Bool) {m : Nat} (h : m < signWeight f) :
    (packNum f neg m).toNat = if neg then signWeight f + m else m := by
  have hw : 2 * signWeight f ≤ 2 ^ 64 := by cases f <;> decide
  rw [packNum, BitVec.toNat_ofNat, Nat.mod_eq_of_lt]
  split <;> omega

@[simp] theorem magOf_packNum (f : Fmt) (neg : Bool) {m : Nat} (h : m < signWeight f) :
    magOf f (packNum f neg m) = m := by
  rw [magOf, packNum_toNat f neg h]
  split
  · rw [Nat.add_mod_left, Nat.mod_eq_of_lt h]
  · exact Nat.mod_eq_of_lt h

@[simp] theorem isNeg_packNum (f : Fmt) (neg : Bool) {m : Nat} (h : m < signWeight f) :
    isNeg f (packNum f neg m) = neg := by
  rw [isNeg, packNum_toNat f neg h]
  cases neg
  · simp [Nat.div_eq_of_lt h]
  · simp [Nat.add_div_left m (Nat.zero_lt_of_lt h), Nat.div_eq_of_lt h]

/-- A magnitude below infinity is packed as a finite value. -/
theorem isFiniteNum_packNum (f : Fmt) (neg : Bool) {m : Nat} (h : m < infMag f) :
    isFiniteNum f (packNum f neg m) = true := by
  rw [isFiniteNum, magOf_packNum f neg (h.trans (infMag_lt_signWeight f)), decide_eq_true h]

theorem unitsOf_packNum_false (f : Fmt) {m : Nat} (h : m < signWeight f) :
    unitsOf f (packNum f false m) = unitsOfMag f m := by
  simp [unitsOf, h]

/-! ### Rounding a magnitude the format can hold -/

/-- The pattern `roundMag` builds from a shift and a significand stands for their product: the significand's
hidden bit is the carry into the exponent field, absent only for a subnormal. -/
theorem unitsOfMag_shift_add (f : Fmt) {s q : Nat} (hlt : q < 2 ^ (fracBits f + 1))
    (hge : s = 0 ∨ 2 ^ fracBits f ≤ q) : unitsOfMag f (s * 2 ^ fracBits f + q) = q * 2 ^ s := by
  have hpos : 0 < 2 ^ fracBits f := Nat.two_pow_pos _
  rw [Nat.pow_succ] at hlt
  rcases Nat.lt_or_ge q (2 ^ fracBits f) with hsub | hnorm
  · obtain rfl : s = 0 := hge.resolve_right (by omega)
    simp [unitsOfMag, Nat.div_eq_of_lt hsub, Nat.mod_eq_of_lt hsub]
  · obtain ⟨r, rfl⟩ := Nat.exists_eq_add_of_le hnorm
    have hr : r < 2 ^ fracBits f := by omega
    have hsplit : s * 2 ^ fracBits f + (2 ^ fracBits f + r) = r + 2 ^ fracBits f * (s + 1) := by ring
    simp [unitsOfMag, hsplit, Nat.add_mul_div_left _ _ hpos, Nat.div_eq_of_lt hr, Nat.mod_eq_of_lt hr]

theorem roundQuot_of_dvd {n s : Nat} (h : 2 ^ s ∣ n) : roundQuot n s = n / 2 ^ s := by
  have hpos : 0 < 2 ^ s := Nat.two_pow_pos s
  simp [roundQuot, Nat.mod_eq_zero_of_dvd h, hpos.ne]

theorem significand_lt (f : Fmt) (k n : Nat) : n / 2 ^ roundShift f k n < 2 ^ (fracBits f + 1) := by
  rw [Nat.div_lt_iff_lt_mul (Nat.two_pow_pos _), ← Nat.pow_add]
  calc n < 2 ^ (n.log2 + 1) := Nat.lt_log2_self
    _ ≤ 2 ^ (fracBits f + 1 + roundShift f k n) :=
      Nat.pow_le_pow_right (by decide) (by unfold roundShift; omega)

/-- Only a subnormal magnitude, which is not shifted, lacks the hidden bit. -/
theorem le_significand (f : Fmt) (n : Nat) :
    roundShift f 0 n = 0 ∨ 2 ^ fracBits f ≤ n / 2 ^ roundShift f 0 n := by
  refine or_iff_not_imp_left.mpr fun hs => ?_
  have hlog : fracBits f + roundShift f 0 n = n.log2 := by unfold roundShift at *; omega
  have hn : n ≠ 0 := by
    rintro rfl
    simp [roundShift] at hs
  rw [Nat.le_div_iff_mul_le (Nat.two_pow_pos _), ← Nat.pow_add, hlog]
  exact Nat.log2_self_le hn

/-- Where the shifted-out bits are zero and the magnitude is within range, rounding loses nothing. -/
theorem roundMag_of_dvd (f : Fmt) {n : Nat} (hdvd : 2 ^ roundShift f 0 n ∣ n) (hs : roundShift f 0 n ≤ scale f) :
    roundMag f 0 n < infMag f ∧ unitsOfMag f (roundMag f 0 n) = n := by
  have hq := significand_lt f 0 n
  have hfin : roundShift f 0 n * 2 ^ fracBits f + n / 2 ^ roundShift f 0 n < infMag f :=
    calc _ < roundShift f 0 n * 2 ^ fracBits f + 2 ^ (fracBits f + 1) := by omega
      _ = (roundShift f 0 n + 2) * 2 ^ fracBits f := by ring
      _ ≤ (scale f + 2) * 2 ^ fracBits f := by gcongr
      _ ≤ infMag f := by cases f <;> decide
  have hround : roundMag f 0 n = roundShift f 0 n * 2 ^ fracBits f + n / 2 ^ roundShift f 0 n := by
    simp only [roundMag, roundQuot_of_dvd hdvd, Nat.sub_zero, Nat.min_eq_right hfin.le]
  rw [hround]
  exact ⟨hfin, (unitsOfMag_shift_add f hq (le_significand f n)).trans (Nat.div_mul_cancel hdvd)⟩

/-! ### Counts (42_conversion.md R166) -/

/-- A number of at most `fracBits + 1` bits is shifted by no more than the bits its units add below it. -/
theorem roundShift_units_le (f : Fmt) {n : Nat} (h : n < 2 ^ (fracBits f + 1)) :
    roundShift f 0 (n * 2 ^ scale f) ≤ scale f := by
  have hlt : n * 2 ^ scale f < 2 ^ (fracBits f + 1 + scale f) := by
    rw [Nat.pow_add]
    exact Nat.mul_lt_mul_of_pos_right h (Nat.two_pow_pos _)
  have hlog : (n * 2 ^ scale f).log2 < fracBits f + 1 + scale f := by
    rcases eq_or_ne (n * 2 ^ scale f) 0 with h0 | h0
    · rw [h0, Nat.log2_zero]; omega
    · exact (Nat.log2_lt h0).mpr hlt
  unfold roundShift
  omega

/-- `toF` is exact on every number that fits the significand with its hidden bit. -/
theorem toF_exact (f : Fmt) {n : Nat} (h : n < 2 ^ (fracBits f + 1)) :
    isFiniteNum f (toF f n) = true ∧ unitsOf f (toF f n) = n * 2 ^ scale f := by
  have hs := roundShift_units_le f h
  have hdvd : 2 ^ roundShift f 0 (n * 2 ^ scale f) ∣ n * 2 ^ scale f :=
    (Nat.pow_dvd_pow 2 hs).mul_left n
  obtain ⟨hfin, hunits⟩ := roundMag_of_dvd f hdvd hs
  refine ⟨isFiniteNum_packNum f false hfin, ?_⟩
  rw [toF, unitsOf_packNum_false f (hfin.trans (infMag_lt_signWeight f)), hunits]
  push_cast
  rfl

/-- Settles O40: a count has 16 bits and its square 32, which fit the significands of 24 and of 53 bits. -/
theorem countsConvertExactly : Obligations.CountsConvertExactly := by
  refine ⟨fun f n hn => toF_exact f ?_, fun h hh => ?_⟩
  · calc n < 2 ^ 16 := by omega
      _ ≤ 2 ^ (fracBits f + 1) := by cases f <;> decide
  · have hsq : h * h < 2 ^ (fracBits .binary64 + 1) :=
      calc h * h ≤ 65535 * 65535 := Nat.mul_le_mul hh hh
        _ < 2 ^ (fracBits .binary64 + 1) := by decide
    exact_mod_cast toF_exact .binary64 hsq

end Sys2Proof.Machine
end

section
/-! PROOFS. The period clamp (43_shell.md R184): its comparison with 2.0 on patterns is the comparison of the values
they stand for, since the value of a magnitude grows with its pattern. -/

namespace Sys2Proof.Machine

/-! ### The order of the magnitudes -/

/-- Every magnitude is a shift and a significand, whose hidden bit is absent only for a subnormal. -/
theorem exists_shift_significand (f : Fmt) (m : Nat) : ∃ s q, m = s * 2 ^ fracBits f + q ∧
    q < 2 ^ (fracBits f + 1) ∧ (s = 0 ∨ 2 ^ fracBits f ≤ q) := by
  have hsplit : 2 ^ fracBits f * (m / 2 ^ fracBits f) + m % 2 ^ fracBits f = m := Nat.div_add_mod ..
  have hr : m % 2 ^ fracBits f < 2 ^ fracBits f := Nat.mod_lt _ (Nat.two_pow_pos _)
  rw [Nat.pow_succ]
  cases hexp : m / 2 ^ fracBits f with
  | zero =>
    rw [hexp] at hsplit
    exact ⟨0, m % 2 ^ fracBits f, by omega, by omega, .inl rfl⟩
  | succ s =>
    rw [hexp, Nat.mul_succ, Nat.mul_comm] at hsplit
    exact ⟨s, 2 ^ fracBits f + m % 2 ^ fracBits f, by omega, by omega, .inr (Nat.le_add_right ..)⟩

/-- The next pattern stands for a larger magnitude, within one exponent and across two. -/
theorem unitsOfMag_lt_succ (f : Fmt) (m : Nat) : unitsOfMag f m < unitsOfMag f (m + 1) := by
  obtain ⟨s, q, rfl, hlt, hge⟩ := exists_shift_significand f m
  rw [unitsOfMag_shift_add f hlt hge]
  rcases Nat.lt_or_ge (q + 1) (2 ^ (fracBits f + 1)) with hsame | hcarry
  · rw [Nat.add_assoc, unitsOfMag_shift_add f hsame (by omega)]
    gcongr
    omega
  · have hnext : s * 2 ^ fracBits f + q + 1 = (s + 1) * 2 ^ fracBits f + 2 ^ fracBits f := by
      rw [Nat.pow_succ] at hlt hcarry
      rw [Nat.add_mul]
      omega
    rw [hnext, unitsOfMag_shift_add f (Nat.pow_lt_pow_succ (by decide)) (.inr le_rfl)]
    calc q * 2 ^ s < 2 ^ (fracBits f + 1) * 2 ^ s := by gcongr
      _ = 2 ^ fracBits f * 2 ^ (s + 1) := by ring

theorem unitsOfMag_strictMono (f : Fmt) : StrictMono (unitsOfMag f) :=
  strictMono_nat_of_lt_succ (unitsOfMag_lt_succ f)

/-- Below a positive value are the values with a sign and those of a smaller magnitude. -/
theorem unitsOf_lt_of_pos (f : Fmt) (x : FVal) {y : FVal} (hpos : isNeg f y = false) (hy : 0 < magOf f y) :
    unitsOf f x < unitsOf f y ↔ isNeg f x = true ∨ magOf f x < magOf f y := by
  have hunits : 0 < unitsOfMag f (magOf f y) := (Nat.zero_le _).trans_lt (unitsOfMag_strictMono f hy)
  cases hx : isNeg f x with
  | true =>
    simp only [unitsOf, hx, hpos, Bool.false_eq_true, if_true, if_false, true_or, iff_true]
    omega
  | false =>
    simp only [unitsOf, hx, hpos, Bool.false_eq_true, if_false, false_or, Nat.cast_lt,
      (unitsOfMag_strictMono f).lt_iff_lt]

/-! ### CLAMP (43_shell.md R184) -/

theorem isNeg_binary64 (x : FVal) : isNeg .binary64 x = sign64 x := by
  have hx : x.toNat < 2 ^ 64 := x.isLt
  rw [Bool.eq_iff_iff, sign64_iff, isNeg, beq_iff_eq, signWeight]
  omega

/-- The comparison CLAMP does on patterns is that of the values. -/
theorem lt64_minPeriod_iff_units (x : FVal) : lt64 x 0x4000000000000000#64 = true ↔
    unitsOf .binary64 x < unitsOf .binary64 0x4000000000000000#64 := by
  have hmag : magOf .binary64 0x4000000000000000#64 = 0x4000000000000000 := by decide
  rw [lt64_minPeriod, unitsOf_lt_of_pos .binary64 x (by decide) (by decide), isNeg_binary64, sign64_iff, hmag, magOf,
    signWeight]
  omega

theorem isNaN64_eq (x : FVal) : isNaN64 x = isNaNNum .binary64 x := rfl

/-- The operands CLAMP refuses. -/
theorem clamp_of_nan_or_infinity (c : Config) {x : FVal}
    (h : isNaNNum .binary64 x = true ∨ x = plusInfinity64) : clamp c x = none := by
  rw [clamp, isNaN64_eq, if_pos (by simpa only [Bool.or_eq_true, beq_iff_eq] using h)]

/-- A finite operand is no NaN and no infinity, so the comparison decides. -/
theorem clamp_of_finite (c : Config) {x : FVal} (h : isFiniteNum .binary64 x = true) :
    clamp c x = if unitsOf .binary64 x < unitsOf .binary64 0x4000000000000000#64
      then some 0x4000000000000000#64 else some x := by
  have hfin : magnitude64 x < 0x7FF0000000000000 := of_decide_eq_true h
  have hnan : ¬ isNaN64 x = true := by rw [isNaN64_iff]; omega
  have hinf : ¬ x = plusInfinity64 := by
    rintro rfl
    exact absurd hfin (by decide)
  have hok : ¬ (isNaN64 x || x == plusInfinity64) = true := by
    rw [Bool.or_eq_true, beq_iff_eq]
    exact not_or.mpr ⟨hnan, hinf⟩
  simp only [clamp, if_neg hok, Config.minPeriod_eq, lt64_minPeriod_iff_units]

theorem clamp_minus_infinity (c : Config) : clamp c 0xFFF0000000000000#64 = some 0x4000000000000000#64 := by
  rw [clamp, Config.minPeriod_eq]
  decide

/-- RESET of an operand CLAMP refuses faults before it writes anything (70_reset_and_hazards.md R231). -/
theorem execReset_of_clamp_none {s : State} {x : FVal} (h : clamp s.cfg x = none) :
    execReset x s = .fault .badPeriod := by
  simp only [execReset, h]

/-- SET_CYCLE_PERIOD of an operand CLAMP refuses faults before it writes anything (43_shell.md R183). -/
theorem execSetCyclePeriod_of_clamp_none {s : State} {x : FVal} (h : clamp s.cfg x = none) :
    execSetCyclePeriod x s = .fault .badPeriod := by
  simp only [execSetCyclePeriod, h]

/-- Settles O42: CLAMP refuses, replaces or keeps its operand by the order of the real values. -/
theorem periodIsClampedToTwoSeconds : Obligations.PeriodIsClampedToTwoSeconds := by
  refine ⟨fun c x => clamp_of_nan_or_infinity c, fun s x hx => ?_, clamp_minus_infinity,
    fun c x => clamp_of_finite c, fun c x p => clamp_legal⟩
  have hnone : clamp s.cfg x = none := clamp_of_nan_or_infinity s.cfg hx
  exact ⟨execReset_of_clamp_none hnone, execSetCyclePeriod_of_clamp_none hnone⟩

end Sys2Proof.Machine
end

section
/-! PROOFS. The host operations after construction (43_shell.md R181 to R183, R185 to R187): the word of each, the next
state it gives from any state, and its fault. -/

namespace Sys2Proof.Machine

/-! ### The schedule (43_shell.md R181 to R183) -/

/-- Settles O44: INIT is REARM. -/
theorem initRearms : Obligations.InitRearms :=
  ⟨fun _ => rfl, fun s => (exec_init s).trans (rearm_eq s)⟩

/-- Settles O45: with nothing pending the timer has no step, whatever `constructed` says. -/
theorem disableCancelsTheSchedule : Obligations.DisableCancelsTheSchedule :=
  ⟨fun _ => rfl, fun s => ⟨s.cancel.disarm, exec_disable s, rfl, Bool.and_false s.constructed⟩⟩

/-- While enabled the pending request is cancelled and the block re-armed with the new period. -/
theorem execSetCyclePeriod_of_enabled {s : State} {x p : FVal} (hp : clamp s.cfg x = some p)
    (he : s.enabled = true) : execSetCyclePeriod x s = .next { s with
      pstate := 0#3
      enabled := true
      sched := .recurring p
      period := p
      rawTemp := none
      clk := false
      ddir := .output
      dout := true
      trace := s.trace ++ softResetEvents
      timerLog := s.timerLog ++ [.cancel, .schedRec p] } := by
  simp only [execSetCyclePeriod, hp, he, if_true, rearm_eq, State.cancel, List.append_assoc, List.singleton_append]

theorem execSetCyclePeriod_of_disabled {s : State} {x p : FVal} (hp : clamp s.cfg x = some p)
    (he : s.enabled = false) : execSetCyclePeriod x s = .next { s with period := p } := by
  simp only [execSetCyclePeriod, hp, he, Bool.false_eq_true, if_false]

/-- Settles O46: CLAMP decides between the fault and the write, and `enabled` whether the block is re-armed. -/
theorem setCyclePeriodRearmsOnlyWhileEnabled : Obligations.SetCyclePeriodRearmsOnlyWhileEnabled :=
  ⟨fun _ => rfl, fun _ _ _ hp he => execSetCyclePeriod_of_enabled hp he,
    fun _ _ _ hp he => execSetCyclePeriod_of_disabled hp he, fun _ _ => execSetCyclePeriod_of_clamp_none⟩

/-! ### The accessors (43_shell.md R185 to R187) -/

/-- An accessor adds its part of the published pair to the returned values and writes nothing else. -/
theorem accessor_of_published {s : State} {r : FVal × FVal} (hr : s.reading = some r) (part : FVal × FVal → Value) :
    andThen s.published (fun q => .next (s.returnToHost (part q))) =
      .next { s with returns := s.returns ++ [part r] } := by
  have hpub : s.published = .next r := by rw [State.published_eq]; simp only [hr]
  rw [hpub, andThen_next]
  rfl

theorem accessor_of_unwritten {s : State} (hr : s.reading = none) (part : FVal × FVal → Value) :
    andThen s.published (fun q => .next (s.returnToHost (part q))) = .fault .readingUnwritten := by
  have hpub : s.published = .fault .readingUnwritten := by rw [State.published_eq]; simp only [hr]
  rw [hpub, andThen_fault]

/-- Settles O47: the three accessors differ only in the part of the pair they return. -/
theorem accessorsReturnThePublishedReading : Obligations.AccessorsReturnThePublishedReading :=
  ⟨fun _ => ⟨rfl, rfl, rfl⟩,
    fun _ _ _ hr => ⟨accessor_of_published hr fun q => .num q.1, accessor_of_published hr fun q => .num q.2,
      accessor_of_published hr fun q => .pair q.1 q.2⟩,
    fun _ hr => ⟨accessor_of_unwritten hr fun q => .num q.1, accessor_of_unwritten hr fun q => .num q.2,
      accessor_of_unwritten hr fun q => .pair q.1 q.2⟩⟩

end Sys2Proof.Machine
end

section
/-! PROOFS. Construction (70_reset_and_hazards.md R230, R231): before it only RESET has a meaning, and RESET gives the
same block from any state. -/

namespace Sys2Proof.Machine

/-! ### The step of an admitted word -/

/-- The fetch of a host word that decodes and may run gives its instruction: step is its meaning. -/
theorem step_of_host_admitted {s : State} {op : Byte} {x : FVal} {rest : List Stimulus} {i : Instr}
    (hm : s.marked = false) (ha : s.agenda = .host op x :: rest) (hd : decode (.host op x) = .ok i)
    (hr : mayRun s.constructed i = true) (hw : i.wellFormed s.cfg.fmt = true) :
    step s = exec i { s with agenda := rest } := by
  have hf : fetch s = .next (some i, { s with agenda := rest }) := by
    rw [fetch_of_agenda_cons hm ha, react, admitWord, hd]
    simp only [hr, hw, if_true]
  rw [step, hf, andThen_next, runFetched]

/-- A host word's refusal is the kind that sets the mark `refused` and nothing else. -/
theorem State.settle_of_ofHostWord (s : State) {r : Refusal} (h : r.ofHostWord = true) :
    s.settle (.refused r) = { s with refused := true } := by
  rw [State.settle, if_pos h]

/-! ### Before construction (70_reset_and_hazards.md R230) -/

/-- Word 1 is the only host word whose instruction may run before construction. -/
theorem mayRun_false_of_host_ne_one {op : Byte} {x : FVal} {i : Instr} (hop : op ≠ 0x01#8)
    (hd : decode (.host op x) = .ok i) : mayRun false i = false := by
  simp only [decode, decodeHost] at hd
  split at hd
  case h_1 h => exact absurd (BitVec.eq_of_toNat_eq h) hop
  all_goals cases hd <;> rfl

/-- Before construction a host word other than 1 is refused, reserved or not. -/
theorem admitWord_host_of_unconstructed {s : State} {op : Byte} (x : FVal) (hc : s.constructed = false)
    (hop : op ≠ 0x01#8) : ∃ r, admitWord (.host op x) s = .refused r ∧ r.ofHostWord = true := by
  by_cases h : op.toNat ∈ [1, 2, 3, 4, 8, 9, 10]
  · obtain ⟨i, hd, -⟩ := decode_host_ok x h
    have hr : mayRun s.constructed i = false := by rw [hc, mayRun_false_of_host_ne_one hop hd]
    refine ⟨.notConstructed, ?_, rfl⟩
    simp only [admitWord, hd, hr, Bool.false_eq_true, if_false]
  · exact ⟨.reservedHostWord op, admitWord_of_decode_error s (decode_host_reserved x h), rfl⟩

/-- No mark is set before construction, so the fetch takes the head of the agenda. -/
theorem fetch_unbuilt_cons (s : State) (e : Stimulus) (rest : List Stimulus) :
    fetch { s.unbuilt with agenda := e :: rest } = react { s.unbuilt with agenda := rest } e :=
  fetch_of_agenda_cons rfl rfl

/-- A firing with no step of the timer is stuck. -/
theorem fireTick_of_not_timerReady {s : State} (h : s.timerReady = false) : fireTick s = .refused .noSchedule := by
  simp only [fireTick, h, Bool.false_eq_true, if_false]

/-- Settles O11: the timer has no step, and of the host words the fetch admits RESET alone. -/
theorem beforeConstructionOnlyResetRuns : Obligations.BeforeConstructionOnlyResetRuns := by
  refine ⟨fun s => ⟨rfl, rfl, rfl⟩, fun s x rest => step_of_host_admitted rfl rfl rfl rfl rfl,
    fun s rest => step_of_fetch_refused ((fetch_unbuilt_cons ..).trans (fireTick_of_not_timerReady rfl)),
    fun s op x rest hop => ?_⟩
  obtain ⟨r, hr, hmark⟩ := admitWord_host_of_unconstructed (s := { s.unbuilt with agenda := rest }) x rfl hop
  exact ⟨r, step_of_fetch_refused ((fetch_unbuilt_cons ..).trans hr), State.settle_of_ofHostWord _ hmark⟩

/-! ### RESET (70_reset_and_hazards.md R231) -/

/-- Armed, RESET is REARM of the rebuilt block; unarmed, only its SOFT_RESET. -/
theorem execReset_of_clamp_some {s : State} {x p : FVal} (h : clamp s.cfg x = some p) :
    execReset x s = .next { s with
      pstate := 0#3
      enabled := s.cfg.armAtConstruction
      sched := if s.cfg.armAtConstruction then .recurring p else .none
      period := p
      rawTemp := none
      reading := none
      clk := false
      ddir := .output
      dout := true
      constructed := true
      trace := s.trace ++ softResetEvents
      timerLog := s.timerLog ++ if s.cfg.armAtConstruction then [.schedRec p] else [] } := by
  simp only [execReset, h]
  cases s.cfg.armAtConstruction with
  | true =>
    rw [if_pos rfl, rearm_eq]
    rfl
  | false =>
    rw [if_neg Bool.false_ne_true, softReset_eq, if_neg Bool.false_ne_true, if_neg Bool.false_ne_true, List.append_nil]
    rfl

/-- Settles O43: CLAMP decides between the fault and the rebuilt block. -/
theorem resetRebuildsTheBlock : Obligations.ResetRebuildsTheBlock :=
  ⟨fun _ => rfl, fun _ _ _ => execReset_of_clamp_some, fun _ _ => execReset_of_clamp_none⟩

end Sys2Proof.Machine
end

section
/-! PROOFS. The encoder and the decoder are inverse to each other (30_encoding.md sections 1 to 4). -/

namespace Sys2Proof.Machine

/-- Settles O1: every word is written out in the table but SEND_COMMAND's, whose immediate is the byte. -/
theorem decodingInvertsEncoding : Obligations.DecodingInvertsEncoding := by
  intro i
  cases i
  case sendCommand c => exact decode_micro_sendCommand c _ _
  all_goals rfl

/-! ### The word of a decoded instruction -/

theorem encode_of_decode_host {op : Byte} {x : FVal} {i : Instr} (h : decode (.host op x) = .ok i) :
    (encode i).space = .host8 ∧ (encode i).word = op.toNat := by
  simp only [decode, decodeHost] at h
  split at h
  case h_8 => cases h
  all_goals next hop => cases h; exact ⟨rfl, hop.symm⟩

theorem encode_of_decode_tick {code : BitVec 3} {i : Instr} (h : decode (.tick code) = .ok i) :
    (encode i).space = .tick ∧ (encode i).word = code.toNat := by
  rcases decode_tick_cases h with ⟨rfl, rfl⟩ | ⟨rfl, rfl⟩ | ⟨rfl, rfl⟩ | ⟨rfl, rfl⟩ | ⟨rfl, rfl⟩ | ⟨rfl, rfl⟩ <;>
    exact ⟨rfl, rfl⟩

theorem encode_of_decode_wire {c : Byte} {i : Instr} (h : decode (.wire c) = .ok i) :
    (encode i).space = .wireCmd ∧ (encode i).word = c.toNat := by
  simp only [decode, decodeWire] at h
  split at h
  case h_3 => cases h
  all_goals next hc => cases h; exact ⟨rfl, hc.symm⟩

/-- The word of a plain micro-operation is its opcode with the immediate 0. -/
theorem encode_of_decodePlainMicro {u : BitVec 12} {t : FVal} {n : Count} {i : Instr}
    (h : decodePlainMicro u t n = .ok i) : (encode i).space = .micro12 ∧ (encode i).word = u.toNat / 256 * 256 := by
  unfold decodePlainMicro at h
  split at h
  case h_11 => cases h
  all_goals next hop =>
    cases h
    rw [microOpcode_toNat] at hop
    exact ⟨rfl, by rw [hop]; rfl⟩

theorem encode_of_decode_micro {u : BitVec 12} {t : FVal} {n : Count} {i : Instr}
    (h : decode (.micro u t n) = .ok i) : (encode i).space = .micro12 ∧ (encode i).word = u.toNat := by
  rw [decode_micro_eq] at h
  split at h
  next hop =>
    cases h
    have hword : (0x3#4 ++ microImm u).toNat = 3 * 256 + u.toNat % 256 := by
      rw [BitVec.toNat_append, ← Nat.shiftLeft_add_eq_or_of_lt (microImm u).isLt, microImm_toNat, Nat.shiftLeft_eq]
      rfl
    exact ⟨rfl, hword.trans (by omega)⟩
  next =>
    split at h
    next himm =>
      obtain ⟨hspace, hword⟩ := encode_of_decodePlainMicro h
      exact ⟨hspace, hword.trans (by omega)⟩
    next => cases h

/-- Settles O2: in each space the number that selects the operation is the word the encoder writes. -/
theorem decodedWordsAreTheEncodersWords : Obligations.DecodedWordsAreTheEncodersWords := by
  intro r i h
  cases r with
  | host op x => exact encode_of_decode_host h
  | tick code => exact encode_of_decode_tick h
  | micro u t n => exact encode_of_decode_micro h
  | wire c => exact encode_of_decode_wire h

/-- Settles O4: the words of the tables, read by the decoder as they stand. -/
theorem wordsOfTheSpecDecodeAsTabled : Obligations.WordsOfTheSpecDecodeAsTabled :=
  ⟨fun _ => rfl, fun _ => rfl, rfl, rfl, fun _ _ => rfl, rfl⟩

end Sys2Proof.Machine
end

section
/-! PROOFS. What every completed instruction leaves unchanged (10_state.md sections 2 to 6), read off its effect. -/

namespace Sys2Proof.Machine

/-! ### The marks and the model's own fields (10_state.md section 6) -/

theorem Effect.leaves_marks {s t : State} {i : Instr} (h : Effect s i t) :
    t.fault = s.fault ∧ t.refused = s.refused ∧ t.agenda = s.agenda ∧ t.script = s.script ∧ t.ports = s.ports ∧
    t.cfg = s.cfg := by
  cases h with
  | polled => simp [afterPoll_not]
  | _ => exact ⟨rfl, rfl, rfl, rfl, rfl, rfl⟩

/-- Settles O50: no effect writes them. -/
theorem completedInstructionsLeaveTheMarks : Obligations.CompletedInstructionsLeaveTheMarks :=
  fun _ _ _ h => (exec_next_effect h).leaves_marks

/-! ### The data registers (10_state.md section 2) -/

theorem Effect.reading_eq {s t : State} {i : Instr} (h : Effect s i t) (h5 : i ≠ .tickS5)
    (hreset : ∀ x, i ≠ .reset x) : t.reading = s.reading := by
  cases h with
  | published => exact absurd rfl h5
  | reset x => exact absurd rfl (hreset x)
  | polled => simp [afterPoll_not]
  | _ => rfl

theorem Effect.rawTemp_eq {s t : State} {i : Instr} (h : Effect s i t) (h2 : i ≠ .tickS2) (h5 : i ≠ .tickS5)
    (hinit : i ≠ .init) (hreset : ∀ x, i ≠ .reset x) (hset : ∀ x, i ≠ .setCyclePeriod x) :
    t.rawTemp = s.rawTemp := by
  cases h with
  | rawStored => exact absurd rfl h2
  | published => exact absurd rfl h5
  | init => exact absurd rfl hinit
  | reset x => exact absurd rfl (hreset x)
  | rearmed x => exact absurd rfl (hset x)
  | polled => simp [afterPoll_not]
  | _ => rfl

/-- Settles O48: an effect that writes a data register is one of the instructions named. -/
theorem onlyTheirRulesWriteTheDataRegisters : Obligations.OnlyTheirRulesWriteTheDataRegisters :=
  fun _ _ _ h => ⟨(exec_next_effect h).reading_eq, (exec_next_effect h).rawTemp_eq⟩

/-! ### The position and the control fields (10_state.md sections 3 to 5) -/

theorem Effect.enabled_eq {s t : State} {i : Instr} (h : Effect s i t) (hinit : i ≠ .init) (hdis : i ≠ .disable)
    (hreset : ∀ x, i ≠ .reset x) : t.enabled = s.enabled := by
  cases h with
  | init => exact absurd rfl hinit
  | disable => exact absurd rfl hdis
  | reset x => exact absurd rfl (hreset x)
  | rearmed _ _ _ he => exact he.symm
  | polled => simp [afterPoll_not]
  | _ => rfl

theorem Effect.period_eq {s t : State} {i : Instr} (h : Effect s i t) (hreset : ∀ x, i ≠ .reset x)
    (hset : ∀ x, i ≠ .setCyclePeriod x) : t.period = s.period := by
  cases h with
  | reset x => exact absurd rfl (hreset x)
  | rearmed x => exact absurd rfl (hset x)
  | periodOnly x => exact absurd rfl (hset x)
  | polled => simp [afterPoll_not]
  | _ => rfl

/-- Outside the ticks, and apart from the host operations that arm, cancel or rebuild, the timer and the position
are left alone; DISABLE keeps the position. -/
theorem Effect.sched_eq {s t : State} {i : Instr} (h : Effect s i t) (htick : i.format ≠ .tick) (hinit : i ≠ .init)
    (hreset : ∀ x, i ≠ .reset x) (hset : ∀ x, i ≠ .setCyclePeriod x) :
    (i ≠ .disable → t.sched = s.sched ∧ t.timerLog = s.timerLog) ∧ t.pstate = s.pstate := by
  cases h with
  | init => exact absurd rfl hinit
  | disable => exact ⟨fun hdis => absurd rfl hdis, rfl⟩
  | reset x => exact absurd rfl (hreset x)
  | rearmed x => exact absurd rfl (hset x)
  | command _ _ hi => rcases hi with ⟨rfl, -⟩ | ⟨rfl, -⟩ <;> exact absurd rfl htick
  | polled _ _ hi => rcases hi with ⟨rfl, -⟩ | ⟨rfl, -⟩ <;> exact absurd rfl htick
  | rawStored => exact absurd rfl htick
  | published => exact absurd rfl htick
  | port => exact ⟨fun _ => ⟨rfl, rfl⟩, rfl⟩
  | periodOnly => exact ⟨fun _ => ⟨rfl, rfl⟩, rfl⟩
  | returned => exact ⟨fun _ => ⟨rfl, rfl⟩, rfl⟩

/-- Settles O49: an effect that writes a control field is one of the instructions named. -/
theorem onlyTheirRulesWriteTheControlFields : Obligations.OnlyTheirRulesWriteTheControlFields := by
  intro i s t h
  have he := exec_next_effect h
  exact ⟨he.enabled_eq, he.period_eq,
    fun htick hinit hdis hreset hset => (he.sched_eq htick hinit hreset hset).1 hdis,
    fun htick hinit hreset hset => (he.sched_eq htick hinit hreset hset).2⟩

end Sys2Proof.Machine
end

section
/-! PROOFS. The invariant of a constructed block (41_sequencer.md section 4), over the effects: each keeps it. -/

namespace Sys2Proof.Machine

/-! ### The effects (10_state.md sections 2 to 5) -/

/-- What a sound state keeps while a tick runs, the timer's firing having consumed the request. -/
structure State.SoundApartFromTimer (s : State) : Prop where
  built : s.constructed = true
  legal : s.pstate.toNat ≤ 5
  periodLegal : legalPeriod s.period
  rawHeld : s.rawTemp.isSome = decide (3 ≤ s.pstate.toNat)
  clockLow : s.clk = false
  readingFits : s.readingSound

theorem State.Sound.apartFromTimer {s : State} (hs : s.Sound) : s.SoundApartFromTimer :=
  ⟨hs.built, hs.legal, hs.periodLegal, hs.rawHeld, hs.clockLow, hs.readingFits⟩

/-- A tick of an enabled block that requests a one-shot with a legal label ends in a sound state, where the position it
moves to holds the raw temperature that is there. -/
theorem State.SoundApartFromTimer.sound_of_once {s t : State} (hs : s.SoundApartFromTimer) (hen : s.enabled = true)
    {us : Nat} (hsched : t.sched = .once us) (hus : legalDelay s.cfg us) (hlegal : t.pstate.toNat ≤ 5)
    (hraw : t.rawTemp.isSome = decide (3 ≤ t.pstate.toNat)) (hclk : t.clk = false)
    (ht : t = { t with
      constructed := s.constructed, enabled := s.enabled, period := s.period, reading := s.reading
      cfg := s.cfg }) : t.Sound := by
  rw [ht]
  refine ⟨hs.built, hlegal, ?_, ?_, hs.periodLegal, hraw, hclk, hs.readingFits⟩
  · simp only [hen, hsched, Sched.pending]
  · simpa only [State.schedSound, hsched] using hus

theorem decode_tick_format {code : BitVec 3} {i : Instr} (h : decode (.tick code) = .ok i) : i.format = .tick := by
  rcases decode_tick_cases h with ⟨-, rfl⟩ | ⟨-, rfl⟩ | ⟨-, rfl⟩ | ⟨-, rfl⟩ | ⟨-, rfl⟩ | ⟨-, rfl⟩ <;> rfl

/-- A position holds the raw temperature as the position of its tick does. -/
theorem State.SoundApartFromTimer.rawHeld_of_tick {s : State} {i : Instr} (hs : s.SoundApartFromTimer)
    (hd : decode (.tick s.pstate) = .ok i) :
    s.rawTemp.isSome = decide (i = .tickS3 ∨ i = .tickS4 ∨ i = .tickS5) := by
  rw [hs.rawHeld]
  rcases decode_tick_cases hd with ⟨hp, rfl⟩ | ⟨hp, rfl⟩ | ⟨hp, rfl⟩ | ⟨hp, rfl⟩ | ⟨hp, rfl⟩ | ⟨hp, rfl⟩ <;>
    rw [hp] <;> rfl

/-- RESET writes every field a sound state speaks of. -/
theorem execReset_sound {s t : State} {x : FVal} (h : execReset x s = .next t) : t.Sound := by
  cases hp : clamp s.cfg x with
  | none => rw [execReset_of_clamp_none hp] at h; cases h
  | some p =>
    rw [execReset_of_clamp_some hp] at h
    cases h
    cases s.cfg.armAtConstruction with
    | true => exact ⟨rfl, Nat.zero_le 5, rfl, ⟨rfl, rfl⟩, clamp_legal hp, rfl, rfl, trivial⟩
    | false => exact ⟨rfl, Nat.zero_le 5, rfl, trivial, clamp_legal hp, rfl, rfl, trivial⟩

/-- Every effect leaves a sound state: outside the ticks from a sound timer, in a tick from an enabled block in the
tick's own position. -/
theorem Effect.sound {s t : State} {i : Instr} (h : Effect s i t) (hs : s.SoundApartFromTimer)
    (htimer : i.format ≠ .tick → s.enabled = s.sched.pending ∧ s.schedSound)
    (htick : i.format = .tick → s.enabled = true ∧ decode (.tick s.pstate) = .ok i) : t.Sound := by
  cases h with
  | port n c o d tr m hi hc =>
    obtain ⟨harmed, hreq⟩ := htimer (by rcases hi with hi | hi <;> rw [hi] <;> decide)
    exact ⟨hs.built, hs.legal, harmed, hreq, hs.periodLegal, hs.rawHeld,
      hc.elim id fun hc => hc.trans hs.clockLow, hs.readingFits⟩
  | reset x p hp => exact execReset_sound (execReset_of_clamp_some hp)
  | init => exact ⟨hs.built, Nat.zero_le 5, rfl, ⟨rfl, rfl⟩, hs.periodLegal, rfl, rfl, hs.readingFits⟩
  | disable => exact ⟨hs.built, hs.legal, rfl, trivial, hs.periodLegal, hs.rawHeld, hs.clockLow, hs.readingFits⟩
  | rearmed x p hp => exact ⟨hs.built, Nat.zero_le 5, rfl, ⟨rfl, rfl⟩, clamp_legal hp, rfl, rfl, hs.readingFits⟩
  | periodOnly x p hp he =>
    obtain ⟨harmed, -⟩ := htimer Space.noConfusion
    have hidle : s.sched = .none := by
      cases hsched : s.sched <;> simp [hsched, he, Sched.pending] at harmed ⊢
    exact ⟨hs.built, hs.legal, harmed, by simp [State.schedSound, hidle], clamp_legal hp, hs.rawHeld, hs.clockLow,
      hs.readingFits⟩
  | returned rs hi =>
    obtain ⟨harmed, hreq⟩ := htimer (by rcases hi with rfl | rfl | rfl <;> decide)
    exact ⟨hs.built, hs.legal, harmed, hreq, hs.periodLegal, hs.rawHeld, hs.clockLow, hs.readingFits⟩
  | command next tr hi =>
    rcases hi with ⟨rfl, rfl⟩ | ⟨rfl, rfl⟩
    all_goals
      obtain ⟨hen, hd⟩ := htick rfl
      exact hs.sound_of_once hen rfl (.inl rfl) (Nat.le_of_ble_eq_true rfl) (hs.rawHeld_of_tick hd) rfl rfl
  | polled stay go hi =>
    rw [afterPoll_not]
    rcases hi with ⟨rfl, rfl, rfl⟩ | ⟨rfl, rfl, rfl⟩
    all_goals
      obtain ⟨hen, hd⟩ := htick rfl
      have hraw := hs.rawHeld_of_tick hd
      cases s.nextDraw
      · exact hs.sound_of_once hen rfl (.inr rfl) (Nat.le_of_ble_eq_true rfl) hraw hs.clockLow rfl
      · exact hs.sound_of_once hen rfl (.inl rfl) (Nat.le_of_ble_eq_true rfl) hraw hs.clockLow rfl
  | rawStored r tr =>
    obtain ⟨hen, -⟩ := htick rfl
    exact hs.sound_of_once hen rfl (.inr rfl) (Nat.le_of_ble_eq_true rfl) rfl rfl rfl
  | published r n tr hr =>
    obtain ⟨hen, -⟩ := htick rfl
    exact ⟨hs.built, Nat.zero_le 5, hen, ⟨rfl, rfl⟩, hs.periodLegal, rfl, rfl,
      convTemp_holds _ _, convHum_holds _ _ _ _⟩

end Sys2Proof.Machine
end

section
/-! PROOFS. The invariants over steps (41_sequencer.md section 4, 40_bus.md section 3): every step keeps them, RESET
establishes them, and under them four of the faults never arise (60_exceptions.md section 1). -/

namespace Sys2Proof.Machine

/-! ### A sound state -/

/-- The agenda and the queued draws are no part of a sound state. -/
theorem State.Sound.withAgenda {s : State} (hs : s.Sound) (agenda : List Stimulus) (draws : List Bool) :
    State.Sound { s with agenda := agenda, draws := draws } :=
  ⟨hs.built, hs.legal, hs.armed, hs.request, hs.periodLegal, hs.rawHeld, hs.clockLow, hs.readingFits⟩

/-- Outside the ticks an instruction starts in a sound state itself. -/
theorem Effect.sound_of_sound {s t : State} {i : Instr} (h : Effect s i t) (hs : s.Sound) (hi : i.format ≠ .tick) :
    t.Sound :=
  h.sound hs.apartFromTimer (fun _ => ⟨hs.armed, hs.request⟩) fun hc => absurd hc hi

/-- The timer has a step only with a request pending. -/
theorem State.pending_of_timerReady {s : State} (h : s.timerReady = true) : s.sched.pending = true :=
  (Bool.and_eq_true_iff.mp h).2

/-- A firing starts its tick in a state that is sound apart from the timer, of an enabled block. -/
theorem Effect.sound_of_firing {s t : State} {i : Instr} {rest : List Stimulus} (hs : s.Sound)
    (ht : s.timerReady = true) (hd : decode (.tick s.pstate) = .ok i)
    (h : Effect { s with agenda := rest, sched := s.sched.afterFiring } i t) : t.Sound :=
  h.sound ⟨hs.built, hs.legal, hs.periodLegal, hs.rawHeld, hs.clockLow, hs.readingFits⟩
    (fun hc => absurd (decode_tick_format hd) hc)
    fun _ => ⟨hs.armed.trans (State.pending_of_timerReady ht), hd⟩

/-- Settles O51: a SENSOR line touches no field of the invariant, and every instruction's effect keeps it. -/
theorem everyStepKeepsASoundState : Obligations.EveryStepKeepsASoundState := by
  intro s t hs h
  obtain ⟨-, ⟨vs, rest, -, rfl⟩ | ⟨op, x, rest, i, -, hd, -, he⟩ | ⟨rest, i, -, ht, hd, he⟩
    | ⟨e, rest, i, -, -, -, hi, he⟩⟩ := step_next_runs h
  · exact hs.withAgenda rest _
  · exact he.sound_of_sound (hs.withAgenda rest s.draws) (by rw [decode_host_format hd]; decide)
  · exact he.sound_of_firing hs ht hd
  · exact he.sound_of_sound (hs.withAgenda rest s.draws) (by rcases hi with hi | hi <;> rw [hi] <;> decide)

/-! ### DATA at rest (40_bus.md section 3) -/

/-- Apart from the port words, every effect leaves DATA resting as the position says, high when driven. -/
theorem Effect.resting {s t : State} {i : Instr} (h : Effect s i t) (hmicro : i.format ≠ .micro12)
    (hwire : i.format ≠ .wireCmd) (hdir : s.ddir = restingDir s.pstate) (hlatch : s.dout = true) :
    t.ddir = restingDir t.pstate ∧ t.dout = true := by
  cases h with
  | port _ _ _ _ _ _ hi => exact (hi.elim hmicro hwire).elim
  | disable => exact ⟨hdir, hlatch⟩
  | periodOnly => exact ⟨hdir, hlatch⟩
  | returned => exact ⟨hdir, hlatch⟩
  | command next tr hi => rcases hi with ⟨rfl, rfl⟩ | ⟨rfl, rfl⟩ <;> exact ⟨rfl, rfl⟩
  | polled stay go hi hin =>
    rw [afterPoll_not]
    rcases hi with ⟨rfl, rfl, rfl⟩ | ⟨rfl, rfl, rfl⟩ <;> cases s.nextDraw <;> exact ⟨hin, hlatch⟩
  | reset => exact ⟨rfl, rfl⟩
  | init => exact ⟨rfl, rfl⟩
  | rearmed => exact ⟨rfl, rfl⟩
  | rawStored => exact ⟨rfl, rfl⟩
  | published => exact ⟨rfl, rfl⟩

/-- RESET leaves DATA at rest in S0, wherever it was. -/
theorem execReset_resting {s t : State} {x : FVal} (h : execReset x s = .next t) :
    t.ddir = restingDir t.pstate ∧ t.dout = true := by
  cases hp : clamp s.cfg x with
  | none => rw [execReset_of_clamp_none hp] at h; cases h
  | some p =>
    rw [execReset_of_clamp_some hp] at h
    cases h
    exact ⟨rfl, rfl⟩

/-- The ports stay unused through an instruction, which writes neither them nor the agenda. -/
theorem Effect.portsUnused {s t : State} {i : Instr} (h : Effect s i t) (hq : s.portsUnused) : t.portsUnused := by
  obtain ⟨-, -, hagenda, -, hports, -⟩ := h.leaves_marks
  rwa [State.portsUnused, hports, hagenda]

/-- A block-sound state after an instruction that is no port word. -/
theorem Effect.blockSound {s t : State} {i : Instr} (h : Effect s i t) (hsound : t.Sound)
    (hmicro : i.format ≠ .micro12) (hwire : i.format ≠ .wireCmd) (hdir : s.ddir = restingDir s.pstate)
    (hlatch : s.dout = true) (hq : s.portsUnused) : t.BlockSound :=
  have ⟨hdir', hlatch'⟩ := h.resting hmicro hwire hdir hlatch
  ⟨hsound, hdir', hlatch', h.portsUnused hq⟩

/-- The ports stay unused when a firing leaves the agenda, or comes by itself. -/
theorem State.portsUnused_fired {s : State} {rest : List Stimulus} (hq : s.portsUnused)
    (ha : s.agenda = .fire :: rest ∨ s.agenda = [] ∧ rest = []) :
    s.ports = false ∨ rest.all Stimulus.ofBlock = true := by
  rcases ha with ha | ⟨-, rfl⟩
  · exact State.portsUnused_tail hq ha
  · exact .inr rfl

/-- Settles O54: while the ports stay unused no port word runs, and every other effect leaves DATA at rest. -/
theorem everyStepKeepsABlockSoundState : Obligations.EveryStepKeepsABlockSoundState := by
  intro s t hs h
  have hsound := everyStepKeepsASoundState s t hs.sound h
  obtain ⟨-, ⟨vs, rest, ha, rfl⟩ | ⟨op, x, rest, i, ha, hd, -, he⟩ | ⟨rest, i, ha, ht, hd, he⟩
    | ⟨e, rest, i, ha, hb, hp, hi, he⟩⟩ := step_next_runs h
  · exact ⟨hsound, hs.dir, hs.latch, State.portsUnused_tail (s := s) hs.quietPorts ha⟩
  · have hf := decode_host_format hd
    exact he.blockSound hsound (by rw [hf]; decide) (by rw [hf]; decide) hs.dir hs.latch
      (State.portsUnused_tail (s := s) hs.quietPorts ha)
  · have hf := decode_tick_format hd
    exact he.blockSound hsound (by rw [hf]; decide) (by rw [hf]; decide) hs.dir hs.latch
      (State.portsUnused_fired (s := s) hs.quietPorts ha)
  · have hclosed := State.portsUnused_cons hs.quietPorts ha hb
    rw [hp] at hclosed
    cases hclosed

/-! ### RESET (70_reset_and_hazards.md section 2) -/

/-- Settles O52: each field of the invariants, at its reset value. -/
theorem resetStateIsSound : Obligations.ResetStateIsSound := by
  intro agenda
  have hsound : State.Sound { State.reset with agenda := agenda } :=
    ⟨rfl, Nat.zero_le 5, rfl, ⟨rfl, rfl⟩, show legalPeriod Config.period0 by decide, rfl, rfl, trivial⟩
  exact ⟨hsound, hsound, rfl, rfl, .inl rfl⟩

/-- Settles O53: RESET writes every field the invariants speak of but the ports and the agenda. -/
theorem resetMakesAnyStateSound : Obligations.ResetMakesAnyStateSound := by
  intro s t x h
  obtain ⟨hdir, hlatch⟩ := execReset_resting h
  refine ⟨execReset_sound h, fun hq => ?_⟩
  exact ⟨execReset_sound h, hdir, hlatch, (exec_next_effect h).portsUnused hq⟩

end Sys2Proof.Machine
end

section
/-! PROOFS. The faults a step can raise, and why a sound block raises only two of them (60_exceptions.md section 1). -/

namespace Sys2Proof.Machine

/-! ### The faults of an instruction -/

/-- SAMPLE_READY, and so a ready poll, faults only while DATA is an output. -/
theorem sampleReady_fault {s : State} {k : Fault} (h : sampleReady s = .fault k) :
    k = .badLineMode ∧ s.ddir = .output := by
  rw [sampleReady_eq] at h
  cases hd : s.ddir with
  | output => rw [hd] at h; cases h; exact ⟨rfl, rfl⟩
  | input =>
    rw [hd] at h
    dsimp only at h
    split at h <;> cases h

theorem pollReady_fault {stay go : BitVec 3} {s : State} {k : Fault} (h : pollReady stay go s = .fault k) :
    k = .badLineMode ∧ s.ddir = .output := by
  rcases andThen_eq_fault.mp h with h | ⟨p, -, h⟩
  · exact sampleReady_fault h
  · cases h

theorem published_fault {s : State} {part : FVal × FVal → Value} {k : Fault}
    (h : andThen s.published (fun r => .next (s.returnToHost (part r))) = .fault k) : k = .readingUnwritten := by
  cases hr : s.reading with
  | none => rw [accessor_of_unwritten hr] at h; cases h; rfl
  | some r => rw [accessor_of_published hr] at h; cases h

theorem execReset_fault {s : State} {x : FVal} {k : Fault} (h : execReset x s = .fault k) : k = .badPeriod := by
  cases hp : clamp s.cfg x with
  | none => rw [execReset_of_clamp_none hp] at h; cases h; rfl
  | some p => rw [execReset_of_clamp_some hp] at h; cases h

theorem execSetCyclePeriod_fault {s : State} {x : FVal} {k : Fault} (h : execSetCyclePeriod x s = .fault k) :
    k = .badPeriod := by
  cases hp : clamp s.cfg x with
  | none => rw [execSetCyclePeriod_of_clamp_none hp] at h; cases h; rfl
  | some p =>
    cases he : s.enabled with
    | true => rw [execSetCyclePeriod_of_enabled hp he] at h; cases h
    | false => rw [execSetCyclePeriod_of_disabled hp he] at h; cases h

theorem beginMeasurement_ne_fault {c : Byte} {next : BitVec 3} {s : State} {k : Fault} :
    beginMeasurement c next s ≠ .fault k := by
  rw [beginMeasurement_eq]
  split <;> nofun

theorem execTickS2_ne_fault {s : State} {k : Fault} : execTickS2 s ≠ .fault k := by
  rw [execTickS2_eq]
  split <;> nofun

theorem execTickS5_fault {s : State} {k : Fault} (h : execTickS5 s = .fault k) :
    k = .rawTempUnwritten ∧ s.rawTemp = none := by
  cases hr : s.rawTemp with
  | none => rw [execTickS5_of_unwritten hr] at h; cases h; exact ⟨rfl, rfl⟩
  | some r =>
    rw [execTickS5_of_rawTemp hr] at h
    split at h <;> cases h

/-- The two faults a host operation can raise. -/
theorem exec_host_fault {i : Instr} {s : State} {k : Fault} (hi : i.format = .host8) (h : exec i s = .fault k) :
    k = .badPeriod ∨ k = .readingUnwritten := by
  cases i with
  | reset x => exact .inl (execReset_fault h)
  | init => rw [exec_init, execInit, rearm_eq] at h; cases h
  | disable => cases h
  | setCyclePeriod x => exact .inl (execSetCyclePeriod_fault h)
  | lastTemperature => exact .inr (published_fault (part := fun r => .num r.1) h)
  | lastHumidity => exact .inr (published_fault (part := fun r => .num r.2) h)
  | lastBoth => exact .inr (published_fault (part := fun r => .pair r.1 r.2) h)
  | _ => cases hi

/-- A tick that faults finds DATA driven in S1 or S4, or no raw temperature in S5. -/
theorem exec_tick_fault {c : BitVec 3} {i : Instr} {s : State} {k : Fault} (hd : decode (.tick c) = .ok i)
    (h : exec i s = .fault k) : (c = 1#3 ∨ c = 4#3) ∧ s.ddir = .output ∨ c = 5#3 ∧ s.rawTemp = none := by
  rcases decode_tick_cases hd with ⟨rfl, rfl⟩ | ⟨rfl, rfl⟩ | ⟨rfl, rfl⟩ | ⟨rfl, rfl⟩ | ⟨rfl, rfl⟩ | ⟨rfl, rfl⟩
  · exact absurd h beginMeasurement_ne_fault
  · exact .inl ⟨.inl rfl, (pollReady_fault h).2⟩
  · exact absurd h execTickS2_ne_fault
  · exact absurd h beginMeasurement_ne_fault
  · exact .inl ⟨.inr rfl, (pollReady_fault h).2⟩
  · exact .inr ⟨rfl, (execTickS5_fault h).2⟩

/-! ### The faults of the fetch -/

/-- An admission that faults is that of a state code or a micro word the decoder rejects. -/
theorem admitWord_fault {r : Request} {s : State} {k : Fault} (h : admitWord r s = .fault k) :
    ∃ e, decode r = .error e ∧ (stopOf e : Host.Outcome (Option Instr × State) Fault Refusal) = .fault k := by
  unfold admitWord at h
  split at h
  next e he => exact ⟨e, he, h⟩
  next =>
    split at h
    · split at h <;> cases h
    · cases h

theorem admitWord_host_ne_fault {op : Byte} {x : FVal} {s : State} {k : Fault} :
    admitWord (.host op x) s ≠ .fault k := by
  intro h
  obtain ⟨e, he, hk⟩ := admitWord_fault h
  by_cases hop : op.toNat ∈ [1, 2, 3, 4, 8, 9, 10]
  · obtain ⟨i, hi, -⟩ := decode_host_ok x hop
    rw [hi] at he
    cases he
  · rw [decode_host_reserved x hop] at he
    cases he
    cases hk

theorem admitWord_tick_fault {c : BitVec 3} {s : State} {k : Fault} (h : admitWord (.tick c) s = .fault k) :
    ¬ c.toNat ≤ 5 := by
  intro hc
  obtain ⟨e, he, -⟩ := admitWord_fault h
  obtain ⟨i, hi, -⟩ := decode_tick_ok hc
  rw [hi] at he
  cases he

theorem fireTick_fault {s : State} {k : Fault} (h : fireTick s = .fault k) : ¬ s.pstate.toNat ≤ 5 := by
  unfold fireTick at h
  split at h
  · exact admitWord_tick_fault h
  · cases h

/-- A word on unused ports is none that the fetch takes, so it does not fault. -/
theorem admitPort_ne_fault {r : Request} {s : State} {k : Fault} (hp : s.ports = false) :
    admitPort r s ≠ .fault k := by
  simp [admitPort, hp]

/-- While the ports stay unused, a fetch that faults is a firing at a position that is none. -/
theorem fetch_fault {s : State} {k : Fault} (hq : s.portsUnused) (h : fetch s = .fault k) :
    ¬ s.pstate.toNat ≤ 5 := by
  unfold fetch at h
  split at h
  · cases h
  split at h
  next =>
    unfold fetchIdle at h
    split at h
    · cases h
    split at h
    · exact fireTick_fault h
    · cases h
  next e rest ha =>
    cases e with
    | host op x => exact absurd h admitWord_host_ne_fault
    | fire => exact fireTick_fault (s := { s with agenda := rest }) h
    | sensor vs => cases h
    | micro u t n => exact absurd h (admitPort_ne_fault (State.portsUnused_cons (s := s) hq ha rfl))
    | wire c => exact absurd h (admitPort_ne_fault (State.portsUnused_cons (s := s) hq ha rfl))

/-! ### A step of a sound block -/

/-- While the ports stay unused, an instruction the fetch gives is a host operation, or the tick of the position, which
starts with the lines and the raw temperature as they are. -/
theorem fetch_runs {s u : State} {i : Instr} (hq : s.portsUnused) (h : fetch s = .next (some i, u)) :
    i.format = .host8 ∨ decode (.tick s.pstate) = .ok i ∧ u.ddir = s.ddir ∧ u.rawTemp = s.rawTemp := by
  obtain ⟨-, ⟨op, x, rest, -, hw⟩ | ⟨rest, -, -, hw⟩ | ⟨-, -, -, hw⟩ | ⟨vs, rest, -, hp⟩
    | ⟨w, x, n, rest, ha, hp, -⟩ | ⟨c, rest, ha, hp, -⟩⟩ := fetch_next_cases h
  · obtain ⟨j, hd, -, -, hj⟩ := admitWord_next hw
    cases hj
    exact .inl (decode_host_format hd)
  · obtain ⟨j, hd, -, -, hj⟩ := admitWord_next hw
    cases hj
    exact .inr ⟨hd, rfl, rfl⟩
  · obtain ⟨j, hd, -, -, hj⟩ := admitWord_next hw
    cases hj
    exact .inr ⟨hd, rfl, rfl⟩
  · cases hp
  · rw [State.portsUnused_cons hq ha rfl] at hp
    cases hp
  · rw [State.portsUnused_cons hq ha rfl] at hp
    cases hp

/-- A block-sound state in S1 or S4 has DATA as an input, and in S5 a raw temperature, so no tick of it faults. -/
theorem State.BlockSound.exec_tick_ne_fault {s u : State} {i : Instr} {k : Fault} (hs : s.BlockSound)
    (hd : decode (.tick s.pstate) = .ok i) (hdir : u.ddir = s.ddir) (hraw : u.rawTemp = s.rawTemp) :
    exec i u ≠ .fault k := by
  intro h
  rcases exec_tick_fault hd h with ⟨hpos, hout⟩ | ⟨hpos, hnone⟩
  · rw [hdir, hs.dir] at hout
    rcases hpos with hpos | hpos <;> rw [hpos] at hout <;> exact absurd hout (by decide)
  · have hheld := hs.sound.rawHeld
    rw [← hraw, hnone, hpos] at hheld
    exact absurd hheld (by decide)

/-- Settles O55: the fetch of a sound block does not fault, nor does its tick, so the fault is a host operation's. -/
theorem unreachableFaultsNeverArise : Obligations.UnreachableFaultsNeverArise := by
  intro s k hs h
  rcases andThen_eq_fault.mp h with hf | ⟨⟨o, u⟩, hf, hr⟩
  · exact absurd hs.sound.legal (fetch_fault hs.quietPorts hf)
  · cases o with
    | none => cases hr
    | some i =>
      rcases fetch_runs hs.quietPorts hf with hi | ⟨hd, hdir, hraw⟩
      · exact exec_host_fault hi hr
      · exact absurd hr (hs.exec_tick_ne_fault hd hdir hraw)

end Sys2Proof.Machine
end

section
/-! PROOFS. What each stimulus makes a step do (30_encoding.md sections 1 to 6, 41_sequencer.md section 1), and the
steps that do not take place (60_exceptions.md, 70_reset_and_hazards.md section 5). -/

namespace Sys2Proof.Machine

/-! ### The marks (10_state.md section 6, 60_exceptions.md section 1) -/

theorem State.fault_of_not_marked {s : State} (h : s.marked = false) : s.fault = none := by
  simpa using (Bool.or_eq_false_iff.mp h).1

theorem State.settle_fault_of_none {s : State} (k : Fault) (h : s.fault = none) :
    s.settle (.fault k) = { s with fault := some k } := by
  simp only [State.settle, State.recordFault, h, Option.getD_none]

theorem State.settle_fault_of_some {s : State} {k : Fault} (k' : Fault) (h : s.fault = some k) :
    s.settle (.fault k') = s := by
  rw [State.settle, State.recordFault, h, Option.getD_some, ← h]

theorem step_of_marked {s : State} (h : s.marked = true) : step s = .refused .halted :=
  step_of_fetch_refused (by simp only [fetch, h, if_true])

/-- Settles O12: either mark halts the fetch, and a recorded fault is not replaced. -/
theorem markedBlockHasNoStep : Obligations.MarkedBlockHasNoStep := by
  refine ⟨fun s h => ?_, fun s k => State.settle_fault_of_none k, fun s k k' => State.settle_fault_of_some k'⟩
  have hm : s.marked = true :=
    Bool.or_eq_true_iff.mpr (h.imp_left (Option.isSome_iff_ne_none.mpr ·))
  have hs := step_of_marked hm
  exact ⟨hs, by rw [hs]; rfl⟩

/-- A step that faults without a mark leaves its kind and changes nothing else. -/
theorem settle_step_of_fault {s : State} {k : Fault} (hm : s.marked = false) (h : step s = .fault k) :
    s.settle (step s) = { s with fault := some k } := by
  rw [h, State.settle_fault_of_none k (State.fault_of_not_marked hm)]

/-- A step refused for a reason that is no host word's changes nothing. -/
theorem settle_step_of_stuck {s : State} {r : Refusal} (hr : r.ofHostWord = false) (h : step s = .refused r) :
    s.settle (step s) = s := by
  rw [h, State.settle, hr, if_neg Bool.false_ne_true]

/-! ### Admitted words (30_encoding.md sections 1, 3, 4) -/

theorem mayRun_true (i : Instr) : mayRun true i = true := by
  cases i <;> rfl

theorem admitWord_of_decode_ok {r : Request} {s : State} {i : Instr} (hc : s.constructed = true)
    (hd : decode r = .ok i) (hw : i.wellFormed s.cfg.fmt = true) : admitWord r s = .next (some i, s) := by
  simp only [admitWord, hd, hc, mayRun_true, hw, if_true]

theorem admitPort_of_open {r : Request} {s : State} (hp : s.ports = true) : admitPort r s = admitWord r s := by
  simp only [admitPort, hp, if_true]

theorem admitPort_of_closed {r : Request} {s : State} (hp : s.ports = false) :
    admitPort r s = .refused .portClosed := by
  simp only [admitPort, hp, Bool.false_eq_true, if_false]

/-- Where the fetch gives an instruction, the step is its meaning. -/
theorem step_of_fetch_next {s u : State} {i : Instr} (h : fetch s = .next (some i, u)) : step s = exec i u := by
  rw [step, h, andThen_next, runFetched]

/-- A micro word on open ports is admitted as a host word is. -/
theorem fetch_of_micro {s : State} {u : BitVec 12} {t : FVal} {n : Count} {rest : List Stimulus}
    (hm : s.marked = false) (hp : s.ports = true) (ha : s.agenda = .micro u t n :: rest) :
    fetch s = admitWord (.micro u t n) { s with agenda := rest } := by
  rw [fetch_of_agenda_cons hm ha]
  exact admitPort_of_open hp

/-- A wire command on open ports is admitted as a host word is. -/
theorem fetch_of_wire {s : State} {c : Byte} {rest : List Stimulus}
    (hm : s.marked = false) (hp : s.ports = true) (ha : s.agenda = .wire c :: rest) :
    fetch s = admitWord (.wire c) { s with agenda := rest } := by
  rw [fetch_of_agenda_cons hm ha]
  exact admitPort_of_open hp

/-- Settles O5: in a constructed block every host word that decodes may run. -/
theorem stepRunsTheHostOperation : Obligations.StepRunsTheHostOperation := by
  intro s op x rest i hm hc ha hd hw
  exact step_of_host_admitted hm ha hd (by rw [hc, mayRun_true]) hw

/-- Settles O7: on open ports a word that decodes is admitted, and a SENSOR line runs no instruction. -/
theorem stepTakesPortWordsAndSensorLines : Obligations.StepTakesPortWordsAndSensorLines := by
  refine ⟨fun s u t n rest i hm hc hp ha hd hw => ?_, fun s c rest i hm hc hp ha hd hw => ?_,
    fun s vs rest hm ha => ?_⟩
  · exact step_of_fetch_next ((fetch_of_micro hm hp ha).trans (admitWord_of_decode_ok hc hd hw))
  · exact step_of_fetch_next ((fetch_of_wire hm hp ha).trans (admitWord_of_decode_ok hc hd hw))
  · rw [step, fetch_of_agenda_cons hm ha]
    rfl

/-- Settles O9: the decoder rejects the word, and on open ports that is a fault. -/
theorem reservedMicroWordFaults : Obligations.ReservedMicroWordFaults := by
  intro s u t n rest hu hm hp ha
  have hd : decode (.micro u t n) = .error (.reservedMicroOp u) := decode_micro_reserved t n (by omega)
  have hs : step s = .fault .badMicroOp :=
    step_of_fetch_fault ((fetch_of_micro hm hp ha).trans (admitWord_of_decode_error _ hd))
  exact ⟨hs, settle_step_of_fault hm hs⟩

/-- A port word at the head of the agenda of a block with closed ports is refused. -/
theorem step_of_portClosed {s : State} {e : Stimulus} {rest : List Stimulus} (hm : s.marked = false)
    (hp : s.ports = false) (ha : s.agenda = e :: rest) (he : e.ofBlock = false) :
    step s = .refused .portClosed := by
  apply step_of_fetch_refused
  rw [fetch_of_agenda_cons hm ha]
  cases e with
  | micro u t n => exact admitPort_of_closed hp
  | wire c => exact admitPort_of_closed hp
  | _ => cases he

theorem step_keeps_ports {s t : State} (h : step s = .next t) : t.ports = s.ports := by
  obtain ⟨-, ⟨vs, rest, -, rfl⟩ | ⟨op, x, rest, i, -, -, -, he⟩ | ⟨rest, i, -, -, -, he⟩
    | ⟨e, rest, i, -, -, -, -, he⟩⟩ := step_next_runs h
  · rfl
  all_goals
    obtain ⟨-, -, -, -, hports, -⟩ := he.leaves_marks
    exact hports

/-- Settles O58: closed ports refuse the word before it is decoded, and no effect writes the ports. -/
theorem noAgentOutsideIssuesAMicroOperation : Obligations.NoAgentOutsideIssuesAMicroOperation := by
  refine ⟨rfl, fun s u t n rest hm hp ha => ?_, fun s c rest hm hp ha => ?_, fun s t => step_keeps_ports⟩
  · have hs := step_of_portClosed hm hp ha rfl
    exact ⟨hs, settle_step_of_stuck rfl hs⟩
  · have hs := step_of_portClosed hm hp ha rfl
    exact ⟨hs, settle_step_of_stuck rfl hs⟩

/-! ### Firings (41_sequencer.md section 1) -/

theorem wellFormed_of_tick {c : BitVec 3} {i : Instr} (fmt : Fmt) (h : decode (.tick c) = .ok i) :
    i.wellFormed fmt = true := by
  rcases decode_tick_cases h with ⟨-, rfl⟩ | ⟨-, rfl⟩ | ⟨-, rfl⟩ | ⟨-, rfl⟩ | ⟨-, rfl⟩ | ⟨-, rfl⟩ <;> rfl

theorem fireTick_of_timerReady {s : State} (h : s.timerReady = true) :
    fireTick s = admitWord (.tick s.pstate) s.enterTick := by
  simp only [fireTick, h, if_true]

/-- A firing with a step of the timer gives the tick of the position, a one-shot being consumed. -/
theorem fireTick_of_decode {s : State} {i : Instr} (h : s.timerReady = true) (hd : decode (.tick s.pstate) = .ok i) :
    fireTick s = .next (some i, s.enterTick) := by
  rw [fireTick_of_timerReady h]
  exact admitWord_of_decode_ok (Bool.and_eq_true_iff.mp h).1 hd (wellFormed_of_tick _ hd)

theorem fireTick_of_invalid {s : State} (h : s.timerReady = true) (hp : 6 ≤ s.pstate.toNat) :
    fireTick s = .fault .badState := by
  rw [fireTick_of_timerReady h]
  exact admitWord_of_decode_error _ (decode_tick_invalid (by omega))

/-- Outside a script a pending request fires by itself when nothing is on the agenda. -/
theorem fetch_of_idle {s : State} (hm : s.marked = false) (ha : s.agenda = []) (hsc : s.script = false)
    (ht : s.timerReady = true) : fetch s = fireTick s := by
  simp only [fetch, hm, ha, fetchIdle, hsc, ht, Bool.false_eq_true, if_false, if_true]

/-- A firing on the agenda runs the tick of the position. -/
theorem step_of_fire {s : State} {rest : List Stimulus} {i : Instr} (hm : s.marked = false) (ht : s.timerReady = true)
    (ha : s.agenda = .fire :: rest) (hd : decode (.tick s.pstate) = .ok i) :
    step s = exec i { s with agenda := rest, sched := s.sched.afterFiring } :=
  step_of_fetch_next ((fetch_of_agenda_cons hm ha).trans (fireTick_of_decode (s := { s with agenda := rest }) ht hd))

/-- Settles O6: both ways of firing dispatch on the position. -/
theorem stepFiresTheTickOfThePosition : Obligations.StepFiresTheTickOfThePosition := by
  refine ⟨fun s rest i => step_of_fire, fun s i hm ht ha hsc hd => ?_, fun s rest hm ht ha => ?_⟩
  · exact step_of_fetch_next ((fetch_of_idle hm ha hsc ht).trans (fireTick_of_decode ht hd))
  · have hs : step s = .refused .noSchedule := step_of_fetch_refused ((fetch_of_agenda_cons hm ha).trans
      (fireTick_of_not_timerReady (s := { s with agenda := rest }) ht))
    exact ⟨hs, settle_step_of_stuck rfl hs⟩

/-- Settles O10: the decoder rejects the position, whichever way the firing comes. -/
theorem invalidStateCodeFaults : Obligations.InvalidStateCodeFaults := by
  refine ⟨fun s rest hp hm ht ha => ?_, fun s hp hm ht ha hsc => ?_⟩
  · have hs : step s = .fault .badState := step_of_fetch_fault ((fetch_of_agenda_cons hm ha).trans
      (fireTick_of_invalid (s := { s with agenda := rest }) ht hp))
    exact ⟨hs, settle_step_of_fault hm hs⟩
  · have hs : step s = .fault .badState :=
      step_of_fetch_fault ((fetch_of_idle hm ha hsc ht).trans (fireTick_of_invalid ht hp))
    exact ⟨hs, settle_step_of_fault hm hs⟩

/-! ### Nothing to come (60_exceptions.md section 4, 70_reset_and_hazards.md section 5) -/

theorem fetch_of_scriptEnd {s : State} (hm : s.marked = false) (ha : s.agenda = []) (hsc : s.script = true) :
    fetch s = .refused .scriptEnded := by
  simp only [fetch, hm, ha, fetchIdle, hsc, Bool.false_eq_true, if_false, if_true]

theorem fetch_of_quiescent {s : State} (hm : s.marked = false) (ha : s.agenda = []) (hsc : s.script = false)
    (ht : s.timerReady = false) : fetch s = .refused .quiescent := by
  simp only [fetch, hm, ha, fetchIdle, hsc, ht, Bool.false_eq_true, if_false]

/-- Settles O13: with an empty agenda the script flag and the timer decide, and neither outcome leaves a mark. -/
theorem quietBlockHasNoStep : Obligations.QuietBlockHasNoStep := by
  refine ⟨fun s hm ha hsc => ?_, fun s hm ha hsc ht => ?_⟩
  · have hs := step_of_fetch_refused (fetch_of_scriptEnd hm ha hsc)
    exact ⟨hs, settle_step_of_stuck rfl hs⟩
  · have hs := step_of_fetch_refused (fetch_of_quiescent hm ha hsc ht)
    exact ⟨hs, settle_step_of_stuck rfl hs⟩

end Sys2Proof.Machine
end

section
/-! PROOFS. A disabled block (43_shell.md section 2, 10_state.md section 6): it stays silent until it is armed, and its
position and raw temperature have no effect. -/

namespace Sys2Proof.Machine

/-! ### Silence (43_shell.md section 2) -/

theorem State.silent.timerReady {s : State} (hs : s.silent) : s.timerReady = false := by
  rw [State.timerReady, hs.2]
  exact Bool.and_false s.constructed

/-- A host operation of a disabled block that does not arm it drives no line and publishes nothing. -/
theorem Effect.silent {s t : State} {i : Instr} (h : Effect s i t) (hs : s.silent) (hhost : i.format = .host8)
    (hinit : i ≠ .init) (hreset : ∀ x, i ≠ .reset x) : t.silent ∧ t.trace = s.trace ∧ t.reading = s.reading := by
  cases h with
  | disable => exact ⟨⟨rfl, rfl⟩, rfl, rfl⟩
  | periodOnly => exact ⟨hs, rfl, rfl⟩
  | returned => exact ⟨hs, rfl, rfl⟩
  | rearmed _ _ _ he => rw [hs.1] at he; cases he
  | init => exact absurd rfl hinit
  | reset x => exact absurd rfl (hreset x)
  | port _ _ _ _ _ _ hi => rw [hhost] at hi; rcases hi with hi | hi <;> cases hi
  | command _ _ hi => rcases hi with ⟨rfl, -⟩ | ⟨rfl, -⟩ <;> cases hhost
  | polled _ _ hi => rcases hi with ⟨rfl, -⟩ | ⟨rfl, -⟩ <;> cases hhost
  | rawStored => cases hhost
  | published => cases hhost

/-- Only the words 1 and 2 arm the timer. -/
theorem decode_host_ne_arming {s : State} {op : Byte} {x : FVal} {rest : List Stimulus} {i : Instr}
    (ha : s.agenda = .host op x :: rest) (harms : s.armsNext = false) (hd : decode (.host op x) = .ok i) :
    i ≠ .init ∧ ∀ y, i ≠ .reset y := by
  simp only [State.armsNext, ha, Bool.or_eq_false_iff, beq_eq_false_iff_ne] at harms
  obtain ⟨hne1, hne2⟩ := harms
  obtain ⟨-, hword⟩ := encode_of_decode_host hd
  refine ⟨?_, fun y => ?_⟩ <;> rintro rfl
  · exact hne2 (BitVec.eq_of_toNat_eq hword.symm)
  · exact hne1 (BitVec.eq_of_toNat_eq hword.symm)

/-- Settles O56: the timer has no step and no port word runs, so only the host could drive the bus. -/
theorem disabledBlockStaysSilent : Obligations.DisabledBlockStaysSilent := by
  intro s t hs hq harms h
  obtain ⟨-, ⟨vs, rest, -, rfl⟩ | ⟨op, x, rest, i, ha, hd, -, he⟩ | ⟨rest, i, -, ht, -, -⟩
    | ⟨e, rest, i, ha, hb, hp, -, -⟩⟩ := step_next_runs h
  · exact ⟨hs, rfl, rfl⟩
  · obtain ⟨hinit, hreset⟩ := decode_host_ne_arming ha harms hd
    exact he.silent hs (decode_host_format hd) hinit hreset
  · rw [hs.timerReady] at ht
    cases ht
  · rw [State.portsUnused_cons hq ha hb] at hp
    cases hp

/-! ### The position of a disabled block (10_state.md section 6) -/

/-- Two outcomes of the same kind: for the same reason, or next states that differ in position and raw temperature at
most, and not once enabled. -/
def alikeApartFromPosition : Host.Outcome State Fault Refusal → Host.Outcome State Fault Refusal → Prop
  | .next t, .next t' => t' = { t with pstate := t'.pstate, rawTemp := t'.rawTemp } ∧ (t.enabled = true → t' = t)
  | .fault k, .fault k' => k' = k
  | .refused a, .refused a' => a' = a
  | _, _ => False

/-- Equal outcomes are alike. -/
theorem alike_of_eq {a b : Host.Outcome State Fault Refusal} (h : b = a) : alikeApartFromPosition a b := by
  subst h
  cases b with
  | next t => exact ⟨rfl, fun _ => rfl⟩
  | fault k => exact rfl
  | refused r => exact rfl

/-- Next states of a block that is still disabled need only differ in position and raw temperature at most. -/
theorem alike_of_disabled {t t' : State} (hoff : t.enabled = false)
    (h : t' = { t with pstate := t'.pstate, rawTemp := t'.rawTemp }) :
    alikeApartFromPosition (.next t) (.next t') :=
  ⟨h, fun hon => by rw [hoff] at hon; cases hon⟩

/-- The same block in another position and with another raw temperature. -/
def State.repositioned (s : State) (c : BitVec 3) (r : Option Count) : State := { s with pstate := c, rawTemp := r }

@[simp] theorem State.repositioned_constructed (s : State) (c : BitVec 3) (r : Option Count) :
    (s.repositioned c r).constructed = s.constructed := rfl

@[simp] theorem State.repositioned_cfg (s : State) (c : BitVec 3) (r : Option Count) :
    (s.repositioned c r).cfg = s.cfg := rfl

@[simp] theorem State.repositioned_reading (s : State) (c : BitVec 3) (r : Option Count) :
    (s.repositioned c r).reading = s.reading := rfl

theorem accessor_alike {s : State} (hs : s.silent) (c : BitVec 3) (r : Option Count) (part : FVal × FVal → Value) :
    alikeApartFromPosition (andThen s.published fun q => .next (s.returnToHost (part q)))
      (andThen (s.repositioned c r).published fun q => .next ((s.repositioned c r).returnToHost (part q))) := by
  have hsame := s.repositioned_reading c r
  cases hr : s.reading with
  | none =>
    rw [accessor_of_unwritten hr, accessor_of_unwritten (hsame.trans hr)]
    exact rfl
  | some q =>
    rw [accessor_of_published hr, accessor_of_published (hsame.trans hr)]
    exact alike_of_disabled hs.1 rfl

/-- A host operation that arms overwrites both, and the others leave both alone. -/
theorem exec_host_alike {s : State} {i : Instr} (hs : s.silent) (hi : i.format = .host8) (c : BitVec 3)
    (r : Option Count) : alikeApartFromPosition (exec i s) (exec i (s.repositioned c r)) := by
  have hcfg := s.repositioned_cfg c r
  cases i with
  | reset x =>
    rw [exec_reset, exec_reset]
    cases hp : clamp s.cfg x with
    | none =>
      rw [execReset_of_clamp_none hp, execReset_of_clamp_none (hcfg ▸ hp)]
      exact rfl
    | some p =>
      rw [execReset_of_clamp_some hp, execReset_of_clamp_some (hcfg ▸ hp)]
      exact alike_of_eq rfl
  | init =>
    rw [exec_init, exec_init, execInit, execInit, rearm_eq, rearm_eq]
    exact alike_of_eq rfl
  | disable => exact alike_of_disabled rfl rfl
  | setCyclePeriod x =>
    rw [exec_setCyclePeriod, exec_setCyclePeriod]
    cases hp : clamp s.cfg x with
    | none =>
      rw [execSetCyclePeriod_of_clamp_none hp, execSetCyclePeriod_of_clamp_none (hcfg ▸ hp)]
      exact rfl
    | some p =>
      rw [execSetCyclePeriod_of_disabled hp hs.1,
        execSetCyclePeriod_of_disabled (s := s.repositioned c r) (hcfg ▸ hp) hs.1]
      exact alike_of_disabled hs.1 rfl
  | lastTemperature => exact accessor_alike hs c r fun q => .num q.1
  | lastHumidity => exact accessor_alike hs c r fun q => .num q.2
  | lastBoth => exact accessor_alike hs c r fun q => .pair q.1 q.2
  | _ => cases hi

/-- Whether a host word is admitted depends on neither. -/
theorem host_word_alike {s : State} (hs : s.silent) (op : Byte) (x : FVal) (c : BitVec 3) (r : Option Count) :
    alikeApartFromPosition (andThen (admitWord (.host op x) s) runFetched)
      (andThen (admitWord (.host op x) (s.repositioned c r)) runFetched) := by
  cases hd : decode (.host op x) with
  | error e =>
    rw [admitWord_of_decode_error s hd, admitWord_of_decode_error _ hd]
    cases e <;> exact rfl
  | ok i =>
    cases hrun : mayRun s.constructed i with
    | false => simp [admitWord, hd, hrun, alikeApartFromPosition]
    | true =>
      cases hwell : i.wellFormed s.cfg.fmt with
      | false => simp [admitWord, hd, hrun, hwell, alikeApartFromPosition]
      | true =>
        simp only [admitWord, hd, State.repositioned_constructed, State.repositioned_cfg, hrun, hwell, if_true]
        exact exec_host_alike hs (decode_host_format hd) c r

/-- One stimulus of the block: of those a disabled block can take, only a host word runs an instruction. -/
theorem react_alike {s : State} {e : Stimulus} (hs : s.silent) (hports : e.ofBlock = false → s.ports = false)
    (c : BitVec 3) (r : Option Count) :
    alikeApartFromPosition (andThen (react s e) runFetched) (andThen (react (s.repositioned c r) e) runFetched) := by
  cases e with
  | host op x => exact host_word_alike hs op x c r
  | fire =>
    rw [react, react, fireTick_of_not_timerReady hs.timerReady,
      fireTick_of_not_timerReady (s := s.repositioned c r) hs.timerReady]
    exact rfl
  | sensor vs => exact alike_of_disabled hs.1 rfl
  | micro u t n =>
    rw [react, react, admitPort_of_closed (hports rfl), admitPort_of_closed (s := s.repositioned c r) (hports rfl)]
    exact rfl
  | wire b =>
    rw [react, react, admitPort_of_closed (hports rfl), admitPort_of_closed (s := s.repositioned c r) (hports rfl)]
    exact rfl

/-- Settles O57: a mark or an empty agenda stops both alike, and one stimulus is taken by both alike. -/
theorem disabledPositionHasNoEffect : Obligations.DisabledPositionHasNoEffect := by
  intro s c r hs hq
  show alikeApartFromPosition (step s) (step (s.repositioned c r))
  cases hm : s.marked with
  | true => exact alike_of_eq ((step_of_marked (s := s.repositioned c r) hm).trans (step_of_marked hm).symm)
  | false =>
    cases ha : s.agenda with
    | nil =>
      cases hsc : s.script with
      | true =>
        rw [step, step, fetch_of_scriptEnd hm ha hsc, fetch_of_scriptEnd (s := s.repositioned c r) hm ha hsc]
        exact rfl
      | false =>
        rw [step, step, fetch_of_quiescent hm ha hsc hs.timerReady,
          fetch_of_quiescent (s := s.repositioned c r) hm ha hsc hs.timerReady]
        exact rfl
    | cons e rest =>
      rw [step, step, fetch_of_agenda_cons hm ha, fetch_of_agenda_cons (s := s.repositioned c r) hm ha]
      exact react_alike (s := { s with agenda := rest }) hs (State.portsUnused_cons (s := s) hq ha) c r

end Sys2Proof.Machine
end

section
/-! PROOFS. The bus primitives that read the sensor (40_bus.md section 2), the command ticks (41_sequencer.md
section 2), and the ticks the sensor keeps from taking place (70_reset_and_hazards.md section 5). -/

namespace Sys2Proof.Machine

/-! ### The primitives (40_bus.md section 2) -/

/-- Settles O15: START takes no sample, so it always ends, with its closed effect on the lines. -/
theorem startDrivesTheStartCondition : Obligations.StartDrivesTheStartCondition :=
  ⟨fun _ _ => rfl, fun s => (exec_start s).trans (start_eq s)⟩

/-- Settles O18: the accumulator of eight samples is their number. -/
theorem receiveByteAssemblesEightSamples : Obligations.ReceiveByteAssemblesEightSamples := by
  intro s hdraw
  rw [exec_receiveByte, execReceiveByte, receiveByte_eq, if_pos hdraw]
  rfl

/-- Settles O22: the two bytes, put together, are the number of the sixteen samples. -/
theorem receiveWordAssemblesSixteenSamples : Obligations.ReceiveWordAssemblesSixteenSamples := by
  intro s hdraw
  rw [exec_receiveWord, execReceiveWord, receiveWord_eq, if_pos hdraw]
  rfl

/-- Settles O21: DATA's mode decides between the one sample and the fault. -/
theorem sampleReadyIsOneSample : Obligations.SampleReadyIsOneSample := by
  refine ⟨fun s hin hdraw => ?_, fun s hout => ?_⟩
  · simp only [exec_sampleReady, execSampleReady, sampleReady_eq, hin, hdraw, if_true, andThen_next,
      State.pastDraw_eq_pastDraws_one]
    rfl
  · simp only [exec_sampleReady, execSampleReady, sampleReady_eq, hout, andThen_fault]

/-! ### The command frames (30_encoding.md section 6, 41_sequencer.md section 2) -/

/-- Settles O23: the two wire commands are MEASURE of the two command bytes the source fixes. -/
theorem measureSendsStartAndCommand : Obligations.MeasureSendsStartAndCommand := by
  intro s hdraw
  rw [exec_measureT, execMeasureT, exec_measureRh, execMeasureRh, measure_eq, measure_eq, if_pos hdraw, if_pos hdraw,
    Config.cmdTemp_eq, Config.cmdHum_eq]
  exact ⟨rfl, rfl⟩

theorem execTickS0_eq (s : State) : execTickS0 s = beginMeasurement 0x03#8 1#3 s := by
  rw [execTickS0, Config.cmdTemp_eq]

theorem execTickS3_eq (s : State) : execTickS3 s = beginMeasurement 0x05#8 4#3 s := by
  rw [execTickS3, Config.cmdHum_eq]

/-- Settles O25: S0 begins the measurement of the command byte 0x03. -/
theorem tickS0StartsTheTemperatureMeasurement : Obligations.TickS0StartsTheTemperatureMeasurement := by
  refine ⟨rfl, fun s hdraw => ?_⟩
  rw [exec_tickS0, execTickS0_eq, beginMeasurement_eq, if_pos hdraw]
  rfl

/-- Settles O28: S3 begins the measurement of the command byte 0x05. -/
theorem tickS3StartsTheHumidityMeasurement : Obligations.TickS3StartsTheHumidityMeasurement := by
  refine ⟨rfl, fun s hdraw => ?_⟩
  rw [exec_tickS3, execTickS3_eq, beginMeasurement_eq, if_pos hdraw]
  rfl

/-! ### The value of the ACK (40_bus.md section 3) -/

/-- Two completed runs are equal but for one sample, of the value drawn, at the same place of the trace. -/
def differInOneSample (v v' : Bool) (t t' : State) : Prop :=
  t' = { t with trace := t'.trace } ∧
  ∃ pre post : List BusEvent,
    t.trace = pre ++ [BusEvent.sample v] ++ post ∧ t'.trace = pre ++ [BusEvent.sample v'] ++ post

/-- The events of a command around its ACK sample, the 53rd. -/
theorem sendCommandEvents_split (c : Byte) (tr : List BusEvent) : ∃ pre post : List BusEvent,
    ∀ ack, tr ++ sendCommandEvents c ack = pre ++ [BusEvent.sample ack] ++ post := by
  refine ⟨tr ++ (sendCommandEvents c true).take 52, [BusEvent.clk false, BusEvent.wait], fun ack => ?_⟩
  rw [List.append_assoc, List.append_assoc]
  rfl

/-- A state whose trace ends with a command, whatever the rest, shows the ACK in the one sample only. -/
theorem differInOneSample_of_command (c : Byte) (tr : List BusEvent) (v v' : Bool) {t t' : State}
    (ht : t.trace = tr ++ sendCommandEvents c v) (ht' : t'.trace = tr ++ sendCommandEvents c v')
    (hrest : t' = { t with trace := t'.trace }) : differInOneSample v v' t t' := by
  obtain ⟨pre, post, hsplit⟩ := sendCommandEvents_split c tr
  exact ⟨hrest, pre, post, ht.trans (hsplit v), ht'.trans (hsplit v')⟩

/-- SEND_COMMAND with the ACK at the head of the SENSOR queue. -/
theorem sendCommand_of_queue (c : Byte) (s : State) (v : Bool) (vs : List Bool) :
    sendCommand c { s with draws := v :: vs } = .next { s with
      draws := vs
      clk := false
      ddir := .input
      dout := c.getLsbD 0
      trace := s.trace ++ sendCommandEvents c v } := by
  rw [sendCommand_eq, if_pos ((State.canDraw_iff _ _).mpr (.inr (Nat.le_add_left ..)))]
  simp [State.pastDraws, State.withLines, State.nextDraw]

theorem sendCommand_differ {c : Byte} {s : State} {v v' : Bool} {vs : List Bool} {t t' : State}
    (h : sendCommand c { s with draws := v :: vs } = .next t)
    (h' : sendCommand c { s with draws := v' :: vs } = .next t') : differInOneSample v v' t t' := by
  rw [sendCommand_of_queue] at h h'
  injection h with h
  injection h' with h'
  subst h h'
  exact differInOneSample_of_command c s.trace v v' rfl rfl rfl

theorem measure_differ {c : Byte} {s : State} {v v' : Bool} {vs : List Bool} {t t' : State}
    (h : measure c { s with draws := v :: vs } = .next t)
    (h' : measure c { s with draws := v' :: vs } = .next t') : differInOneSample v v' t t' := by
  rw [measure, start_eq, andThen_next] at h h'
  exact sendCommand_differ (s := s.withLines .output true false (s.trace ++ startEvents)) h h'

theorem beginMeasurement_differ {c : Byte} {next : BitVec 3} {s : State} {v v' : Bool} {vs : List Bool} {t t' : State}
    (h : beginMeasurement c next { s with draws := v :: vs } = .next t)
    (h' : beginMeasurement c next { s with draws := v' :: vs } = .next t') : differInOneSample v v' t t' := by
  obtain ⟨u, hu, hn⟩ := andThen_eq_next.mp h
  obtain ⟨u', hu', hn'⟩ := andThen_eq_next.mp h'
  obtain ⟨hrest, pre, post, hpre, hpost⟩ := measure_differ hu hu'
  cases hn
  cases hn'
  rw [hrest]
  exact ⟨rfl, pre, post, hpre, hpost⟩

/-- Settles O24: each of the instructions runs SEND_COMMAND, and nothing after it reads the trace. -/
theorem ackValueSteersNothing : Obligations.AckValueSteersNothing := by
  intro i s v v' vs t t' hi h h'
  rcases hi with hi | ⟨c, rfl⟩
  · simp only [List.mem_cons, List.not_mem_nil, or_false] at hi
    rcases hi with rfl | rfl | rfl | rfl
    · rw [exec_tickS0, execTickS0_eq] at h h'
      exact beginMeasurement_differ h h'
    · rw [exec_tickS3, execTickS3_eq] at h h'
      exact beginMeasurement_differ h h'
    · rw [exec_measureT, execMeasureT, Config.cmdTemp_eq] at h h'
      exact measure_differ h h'
    · rw [exec_measureRh, execMeasureRh, Config.cmdHum_eq] at h h'
      exact measure_differ h h'
  · exact sendCommand_differ h h'

/-! ### Ticks without their draws (70_reset_and_hazards.md section 5) -/

theorem beginMeasurement_stuck (c : Byte) (next : BitVec 3) {s : State} (h : s.canDraw 1 = false) :
    beginMeasurement c next s = .refused .noDraw := by
  rw [beginMeasurement_eq, h, if_neg Bool.false_ne_true]

theorem pollReady_stuck (stay go : BitVec 3) {s : State} (hin : s.ddir = .input) (h : s.canDraw 1 = false) :
    pollReady stay go s = .refused .noDraw := by
  rw [pollReady_of_input _ _ hin, h, if_neg Bool.false_ne_true]

theorem execTickS2_stuck {s : State} (h : s.canDraw 16 = false) : execTickS2 s = .refused .noDraw := by
  rw [execTickS2_eq, h, if_neg Bool.false_ne_true]

theorem execTickS5_stuck {s : State} (hr : s.rawTemp ≠ none) (h : s.canDraw 16 = false) :
    execTickS5 s = .refused .noDraw := by
  obtain ⟨r, hr⟩ := Option.ne_none_iff_exists'.mp hr
  rw [execTickS5_of_rawTemp hr, h, if_neg Bool.false_ne_true]

/-- Settles O31: the command ticks and the polls need one value, the ticks that receive a count sixteen. -/
theorem tickWithoutDrawsIsStuck : Obligations.TickWithoutDrawsIsStuck :=
  ⟨fun _ h => ⟨beginMeasurement_stuck _ _ h, beginMeasurement_stuck _ _ h,
      fun hin => ⟨pollReady_stuck _ _ hin h, pollReady_stuck _ _ hin h⟩⟩,
    fun _ h => ⟨execTickS2_stuck h, fun hr => execTickS5_stuck hr h⟩, fun _ => rfl⟩

end Sys2Proof.Machine
end

section
/-! PROOFS. Runs of firings (41_sequencer.md section 4): a poll without an end, and one full measurement cycle. -/

namespace Sys2Proof.Machine

/-! ### Draws from a SENSOR queue (70_reset_and_hazards.md section 5) -/

theorem State.canDraw_of_append {s : State} {n : Nat} {us vs : List Bool} (hlen : us.length = n)
    (h : s.draws = us ++ vs) : s.canDraw n = true :=
  (State.canDraw_iff _ _).mpr (.inr (by simp [h, hlen]))

theorem State.upcoming_of_append {s : State} {n : Nat} {us vs : List Bool} (hlen : us.length = n)
    (h : s.draws = us ++ vs) : s.upcoming n = us := by
  rw [State.upcoming_of_queue _ _ (by simp [h, hlen]), h, List.take_left' hlen]

theorem State.pastDraws_of_append {s : State} {n : Nat} {us vs : List Bool} (hlen : us.length = n)
    (h : s.draws = us ++ vs) : s.pastDraws n = { s with draws := vs } := by
  simp [State.pastDraws, h, ← hlen]

theorem pollReady_of_queue (stay go : BitVec 3) {s : State} {v : Bool} {vs : List Bool} (hin : s.ddir = .input)
    (hq : s.draws = v :: vs) : pollReady stay go s = .next { s with
      draws := vs
      pstate := if v then stay else go
      sched := .once (if v then s.cfg.pollUs else s.cfg.fastUs)
      trace := s.trace ++ [.sample v]
      timerLog := s.timerLog ++ [.schedOnce (if v then s.cfg.pollUs else s.cfg.fastUs)] } := by
  have hv : s.nextDraw = v := by rw [State.nextDraw, hq]
  have hdraw : s.canDraw 1 = true := State.canDraw_of_append (us := [v]) rfl hq
  have hpast : s.pastDraws 1 = { s with draws := vs } := State.pastDraws_of_append (us := [v]) rfl hq
  rw [pollReady_of_input _ _ hin, if_pos hdraw, hpast, hv]

theorem beginMeasurement_of_queue (c : Byte) (next : BitVec 3) {s : State} {ack : Bool} {vs : List Bool}
    (hq : s.draws = ack :: vs) : beginMeasurement c next s = .next { s with
      draws := vs
      pstate := next
      sched := .once s.cfg.pollUs
      clk := false
      ddir := .input
      dout := c.getLsbD 0
      trace := s.trace ++ startEvents ++ sendCommandEvents c ack
      timerLog := s.timerLog ++ [.schedOnce s.cfg.pollUs] } := by
  have hv : s.nextDraw = ack := by rw [State.nextDraw, hq]
  have hdraw : s.canDraw 1 = true := State.canDraw_of_append (us := [ack]) rfl hq
  have hpast : s.pastDraws 1 = { s with draws := vs } := State.pastDraws_of_append (us := [ack]) rfl hq
  rw [beginMeasurement_eq, if_pos hdraw, hpast, hv]

theorem execTickS2_of_queue {s : State} {us vs : List Bool} (hlen : us.length = 16) (hq : s.draws = us ++ vs) :
    execTickS2 s = .next { s with
      draws := vs
      pstate := 3#3
      sched := .once s.cfg.fastUs
      rawTemp := some (BitVec.ofNat 16 (natOfBits us))
      clk := false
      ddir := .output
      dout := true
      trace := s.trace ++ receiveWordEvents us
      timerLog := s.timerLog ++ [.schedOnce s.cfg.fastUs] } := by
  rw [execTickS2_eq, if_pos (State.canDraw_of_append hlen hq), State.upcoming_of_append hlen hq,
    State.pastDraws_of_append hlen hq]

theorem execTickS5_of_queue {s : State} {r : Count} {us vs : List Bool} (hr : s.rawTemp = some r)
    (hlen : us.length = 16) (hq : s.draws = us ++ vs) : execTickS5 s = .next { s with
      draws := vs
      pstate := 0#3
      sched := .recurring s.period
      rawTemp := none
      reading := some (convTemp s.cfg.fmt r,
        convHum s.cfg.fmt s.cfg.sqOrder (convTemp s.cfg.fmt r) (BitVec.ofNat 16 (natOfBits us)))
      clk := false
      ddir := .output
      dout := true
      trace := s.trace ++ receiveWordEvents us
      timerLog := s.timerLog ++ [.schedRec s.period] } := by
  rw [execTickS5_of_rawTemp hr, if_pos (State.canDraw_of_append hlen hq), State.upcoming_of_append hlen hq,
    State.pastDraws_of_append hlen hq]

/-! ### One firing (41_sequencer.md sections 1 and 2) -/

/-- A block whose next step is the tick of position `c`, fired from the agenda, with `vs` queued for its samples. -/
structure State.Awaits (s : State) (c : BitVec 3) (rest : List Stimulus) (vs : List Bool) : Prop where
  unmarked : s.marked = false
  built : s.constructed = true
  pending : s.sched ≠ .none
  position : s.pstate = c
  agenda : s.agenda = .fire :: rest
  draws : s.draws = vs

theorem State.Awaits.timerReady {s : State} {c : BitVec 3} {rest : List Stimulus} {vs : List Bool}
    (h : s.Awaits c rest vs) : s.timerReady = true := by
  have hpending := h.pending
  rw [State.timerReady, h.built, Bool.true_and]
  cases hs : s.sched with
  | none => exact absurd hs hpending
  | once us => rfl
  | recurring p => rfl

theorem State.Awaits.step_eq {s : State} {c : BitVec 3} {rest : List Stimulus} {vs : List Bool} {i : Instr}
    (h : s.Awaits c rest vs) (hd : decode (.tick c) = .ok i) :
    step s = exec i { s with agenda := rest, sched := s.sched.afterFiring } :=
  step_of_fire h.unmarked h.timerReady h.agenda (h.position.symm ▸ hd)

/-- What every tick that requests a one-shot leaves: the firing taken, the samples used, the next position, and its
events and its request logged. -/
def State.ticked (s : State) (rest : List Stimulus) (vs : List Bool) (next : BitVec 3) (us : Nat)
    (events : List BusEvent) : State :=
  { s with
    agenda := rest
    draws := vs
    pstate := next
    sched := .once us
    trace := s.trace ++ events
    timerLog := s.timerLog ++ [.schedOnce us] }

/-- The lines as a tick that drives them leaves them: CLOCK low, the latch high (40_bus.md R113). -/
def State.restingAt (s : State) (d : Dir) : State := { s with clk := false, ddir := d, dout := true }

/-- A firing in S1 or S4: the sample alone decides the next position and the delay (R133, R136). -/
theorem State.Awaits.step_poll {s : State} {stay : BitVec 3} (go : BitVec 3) {rest : List Stimulus} {v : Bool}
    {vs : List Bool} {i : Instr} (h : s.Awaits stay rest (v :: vs)) (hd : decode (.tick stay) = .ok i)
    (hi : ∀ u, exec i u = pollReady stay go u) (hin : s.ddir = .input) :
    step s = .next (s.ticked rest vs (if v then stay else go) (if v then s.cfg.pollUs else s.cfg.fastUs)
      [.sample v]) := by
  rw [h.step_eq hd, hi]
  exact pollReady_of_queue stay go hin h.draws

/-- A firing in S0 or S3: the command of the position is sent, whatever its ACK (R132, R135). -/
theorem State.Awaits.step_command {s : State} {c : BitVec 3} (cmd : Byte) (next : BitVec 3) {rest : List Stimulus}
    {ack : Bool} {vs : List Bool} {i : Instr} (h : s.Awaits c rest (ack :: vs)) (hd : decode (.tick c) = .ok i)
    (hi : ∀ u, exec i u = beginMeasurement cmd next u) (hodd : cmd.getLsbD 0 = true) :
    step s = .next (State.restingAt
      (s.ticked rest vs next s.cfg.pollUs (startEvents ++ sendCommandEvents cmd ack)) .input) := by
  rw [h.step_eq hd, hi, beginMeasurement_of_queue cmd next (by exact h.draws), hodd, List.append_assoc]
  rfl

/-- A firing in S2: the count is stored (R134). -/
theorem State.Awaits.step_tickS2 {s : State} {rest : List Stimulus} {us vs : List Bool}
    (h : s.Awaits 2#3 rest (us ++ vs)) (hlen : us.length = 16) :
    step s = .next (State.restingAt { s.ticked rest vs 3#3 s.cfg.fastUs (receiveWordEvents us) with
      rawTemp := some (BitVec.ofNat 16 (natOfBits us)) } .output) := by
  rw [h.step_eq rfl, exec_tickS2]
  exact execTickS2_of_queue hlen h.draws

/-- A firing in S5 with a raw temperature: the pair is published and the cycle starts again (R137). -/
theorem State.Awaits.step_tickS5 {s : State} {r : Count} {rest : List Stimulus} {us vs : List Bool}
    (h : s.Awaits 5#3 rest (us ++ vs)) (hr : s.rawTemp = some r) (hlen : us.length = 16) :
    step s = .next (State.restingAt { s with
      agenda := rest
      draws := vs
      pstate := 0#3
      sched := .recurring s.period
      rawTemp := none
      reading := some (convTemp s.cfg.fmt r,
        convHum s.cfg.fmt s.cfg.sqOrder (convTemp s.cfg.fmt r) (BitVec.ofNat 16 (natOfBits us)))
      trace := s.trace ++ receiveWordEvents us
      timerLog := s.timerLog ++ [.schedRec s.period] } .output) := by
  rw [h.step_eq rfl, exec_tickS5]
  exact execTickS5_of_queue hr hlen h.draws

/-! ### Runs -/

theorem core_run_succ {s t u : State} {n : Nat} (hstep : step s = .next t) (hrun : core.run n t = .next u) :
    core.run (n + 1) s = .next u := by
  have hcore : core.step s = .next t := hstep
  simp only [Host.Core.run, hcore]
  exact hrun

/-- A poll with a high sample keeps the position. -/
theorem State.Awaits.step_poll_high {s : State} {stay : BitVec 3} {rest : List Stimulus} {vs : List Bool}
    (h : s.Awaits stay rest (true :: vs)) (hpos : stay = 1#3 ∨ stay = 4#3) (hin : s.ddir = .input) :
    step s = .next (s.ticked rest vs stay s.cfg.pollUs [.sample true]) := by
  rcases hpos with rfl | rfl
  · exact h.step_poll 2#3 (i := .tickS1) rfl (fun _ => rfl) hin
  · exact h.step_poll 5#3 (i := .tickS4) rfl (fun _ => rfl) hin

/-- Settles O33, by induction on the polls: each leaves a block that polls again. -/
theorem pollingNeverTimesOut : Obligations.PollingNeverTimesOut := by
  intro n
  induction n with
  | zero =>
    intro s vs rest hm hc hpos hsched hin hdraws hagenda
    exact ⟨s, rfl, rfl, rfl, rfl, by simp, by simp, hsched, hagenda, hdraws⟩
  | succ n ih =>
    intro s vs rest hm hc hpos hsched hin hdraws hagenda
    have hawaits : s.Awaits s.pstate (List.replicate n .fire ++ rest) (true :: (List.replicate n true ++ vs)) :=
      ⟨hm, hc, hsched, rfl, hagenda, hdraws⟩
    obtain ⟨t, hrun, hp, hr, hraw, htrace, hlog, hpend, ha, hd⟩ :=
      ih (s.ticked (List.replicate n .fire ++ rest) (List.replicate n true ++ vs) s.pstate s.cfg.pollUs [.sample true])
        vs rest hm hc hpos nofun hin rfl rfl
    refine ⟨t, core_run_succ (hawaits.step_poll_high hpos hin) hrun, hp, hr, hraw, ?_, ?_, hpend, ha, hd⟩
    · rw [htrace, List.replicate_succ]
      simp [State.ticked]
    · rw [hlog, List.replicate_succ]
      simp [State.ticked]

/-! ### A full cycle (41_sequencer.md section 4) -/

theorem sendCommandEvents_length (c : Byte) (ack : Bool) : (sendCommandEvents c ack).length = 55 := rfl

theorem receiveByteEvents_length (vs : List Bool) : (receiveByteEvents vs).length = 1 + 5 * vs.length := by
  simp [receiveByteEvents, List.length_flatMap]
  omega

theorem receiveWordEvents_length {vs : List Bool} (h : vs.length = 16) : (receiveWordEvents vs).length = 97 := by
  simp [receiveWordEvents, receiveByteEvents_length, h, ackByteEvents, terminateEvents, clockPulse]

/-- Settles O32: each firing leaves a block that awaits the next position's tick. -/
theorem sixTicksPublishAReading : Obligations.SixTicksPublishAReading := by
  intro s ack₁ ack₂ ts hs vs rest hm hc hp hsched hts hhs hdraws hagenda
  rw [List.append_assoc] at hdraws
  have h0 : s.Awaits 0#3 (List.replicate 5 .fire ++ rest) (ack₁ :: false :: (ts ++ (ack₂ :: false :: (hs ++ vs)))) :=
    ⟨hm, hc, hsched, hp, hagenda, hdraws⟩
  refine ⟨_,
    core_run_succ (h0.step_command 0x03#8 1#3 (i := .tickS0) rfl execTickS0_eq rfl) <|
    core_run_succ (State.Awaits.step_poll 2#3 (i := .tickS1)
      ⟨hm, hc, nofun, rfl, rfl, rfl⟩ rfl (fun _ => rfl) rfl) <|
    core_run_succ (State.Awaits.step_tickS2 ⟨hm, hc, nofun, rfl, rfl, rfl⟩ hts) <|
    core_run_succ (State.Awaits.step_command 0x05#8 4#3 (i := .tickS3)
      ⟨hm, hc, nofun, rfl, rfl, rfl⟩ rfl execTickS3_eq rfl) <|
    core_run_succ (State.Awaits.step_poll 5#3 (i := .tickS4)
      ⟨hm, hc, nofun, rfl, rfl, rfl⟩ rfl (fun _ => rfl) rfl) <|
    core_run_succ (State.Awaits.step_tickS5 ⟨hm, hc, nofun, rfl, rfl, rfl⟩ rfl hhs) rfl,
    rfl, rfl, rfl, rfl, ?_, ?_, rfl, rfl⟩
  · simp [State.ticked, State.restingAt, sendCommandEvents_length, receiveWordEvents_length, hts, hhs, startEvents]
  · simp [State.ticked, State.restingAt]

end Sys2Proof.Machine
end

section
/-! PROOFS. Rounding to nearest, ties to even (00_scope.md section 4, 42_conversion.md section 1): the rounded magnitude
is the nearest one of the format, and so are the rounded sum and product. -/

namespace Sys2Proof.Machine

/-! ### The rounded quotient -/

theorem roundQuot_cases (n s : Nat) :
    (roundQuot n s = n / 2 ^ s ∧
      (2 * (n % 2 ^ s) < 2 ^ s ∨ 2 * (n % 2 ^ s) = 2 ^ s ∧ n / 2 ^ s % 2 = 0)) ∨
    (roundQuot n s = n / 2 ^ s + 1 ∧
      (2 ^ s < 2 * (n % 2 ^ s) ∨ 2 * (n % 2 ^ s) = 2 ^ s ∧ n / 2 ^ s % 2 = 1)) := by
  simp only [roundQuot]
  split <;> omega

theorem roundQuot_bounds (n s : Nat) : n / 2 ^ s ≤ roundQuot n s ∧ roundQuot n s ≤ n / 2 ^ s + 1 := by
  have h := roundQuot_cases n s
  omega

/-- A multiple of the divisor is one of the two around the exact value, or beyond them. -/
theorem multiple_cases (j a d : Nat) : (j = a ∧ j * d = a * d) ∨ (j = a + 1 ∧ j * d = a * d + d) ∨
    j * d + d ≤ a * d ∨ a * d + d + d ≤ j * d := by
  rcases lt_trichotomy j a with h | rfl | h
  · exact .inr (.inr (.inl (Nat.succ_mul j d ▸ Nat.mul_le_mul_right d h)))
  · exact .inl ⟨rfl, rfl⟩
  · rcases Nat.eq_or_lt_of_le h with rfl | h
    · exact .inr (.inl ⟨rfl, Nat.succ_mul a d⟩)
    · have hle := Nat.mul_le_mul_right d h
      rw [Nat.succ_mul, Nat.succ_mul] at hle
      exact .inr (.inr (.inr hle))

/-- No multiple of the divisor is nearer than the rounded one, and where another is as near it is even. -/
theorem roundQuot_nearest (n s j : Nat) :
    (((roundQuot n s * 2 ^ s : Nat) : Int) - n).natAbs ≤ (((j * 2 ^ s : Nat) : Int) - n).natAbs ∧
    ((((roundQuot n s * 2 ^ s : Nat) : Int) - n).natAbs = (((j * 2 ^ s : Nat) : Int) - n).natAbs →
      j ≠ roundQuot n s → roundQuot n s % 2 = 0) := by
  have hn : n / 2 ^ s * 2 ^ s + n % 2 ^ s = n := Nat.div_add_mod' n (2 ^ s)
  have hr : n % 2 ^ s < 2 ^ s := Nat.mod_lt _ (Nat.two_pow_pos s)
  have hj := multiple_cases j (n / 2 ^ s) (2 ^ s)
  rcases roundQuot_cases n s with ⟨hq, hdown⟩ | ⟨hq, hup⟩
  · rw [hq]
    omega
  · rw [hq, Nat.succ_mul]
    omega

theorem roundQuot_mono (s : Nat) : Monotone fun n => roundQuot n s := by
  intro n n' h
  have hdiv : n / 2 ^ s ≤ n' / 2 ^ s := Nat.div_le_div_right h
  have hn : n / 2 ^ s * 2 ^ s + n % 2 ^ s = n := Nat.div_add_mod' n (2 ^ s)
  have hn' : n' / 2 ^ s * 2 ^ s + n' % 2 ^ s = n' := Nat.div_add_mod' n' (2 ^ s)
  have hq := roundQuot_cases n s
  have hq' := roundQuot_cases n' s
  show roundQuot n s ≤ roundQuot n' s
  rcases Nat.eq_or_lt_of_le hdiv with heq | hlt
  · rw [heq] at hn hq
    omega
  · omega

/-! ### The pattern of a rounded magnitude -/

theorem le_roundShift (f : Fmt) (k n : Nat) : k ≤ roundShift f k n := Nat.le_max_left ..

/-- A magnitude that loses more bits than it must has the hidden bit. -/
theorem two_pow_le_of_lt_roundShift {f : Fmt} {k n : Nat} (h : k < roundShift f k n) :
    2 ^ (fracBits f + roundShift f k n) ≤ n := by
  have hlog : fracBits f + roundShift f k n = n.log2 := by unfold roundShift at *; omega
  have hn : n ≠ 0 := by
    rintro rfl
    simp [roundShift] at h
  rw [hlog]
  exact Nat.log2_self_le hn

/-- The significand, rounded, has at most the hidden bit's double, and lacks the hidden bit only if unshifted. -/
theorem roundQuot_significand (f : Fmt) (k n : Nat) :
    roundQuot n (roundShift f k n) ≤ 2 ^ (fracBits f + 1) ∧
    (roundShift f k n = k ∨ 2 ^ fracBits f ≤ roundQuot n (roundShift f k n)) := by
  have hlt := significand_lt f k n
  obtain ⟨hlo, hhi⟩ := roundQuot_bounds n (roundShift f k n)
  refine ⟨by omega, ?_⟩
  rcases Nat.eq_or_lt_of_le (le_roundShift f k n) with h | h
  · exact .inl h.symm
  · have hge : 2 ^ fracBits f ≤ n / 2 ^ roundShift f k n := by
      rw [Nat.le_div_iff_mul_le (Nat.two_pow_pos _), ← Nat.pow_add]
      exact two_pow_le_of_lt_roundShift h
    exact .inr (hge.trans hlo)

/-- `roundMag` before it is cut off at infinity. -/
def roundedPattern (f : Fmt) (k n : Nat) : Nat :=
  (roundShift f k n - k) * 2 ^ fracBits f + roundQuot n (roundShift f k n)

theorem roundMag_eq (f : Fmt) (k n : Nat) : roundMag f k n = min (infMag f) (roundedPattern f k n) := rfl

theorem roundMag_eq_of_lt {f : Fmt} {k n : Nat} (h : roundMag f k n < infMag f) :
    roundMag f k n = roundedPattern f k n := by
  rw [roundMag_eq] at *
  omega

/-- A significand that rounds up to the next power of two carries into the exponent field. -/
theorem unitsOfMag_shift_add_of_le (f : Fmt) {s q : Nat} (hle : q ≤ 2 ^ (fracBits f + 1))
    (hge : s = 0 ∨ 2 ^ fracBits f ≤ q) : unitsOfMag f (s * 2 ^ fracBits f + q) = q * 2 ^ s := by
  rcases Nat.eq_or_lt_of_le hle with rfl | hlt
  · have hnext : s * 2 ^ fracBits f + 2 ^ (fracBits f + 1) = (s + 1) * 2 ^ fracBits f + 2 ^ fracBits f := by ring
    rw [hnext, unitsOfMag_shift_add f (Nat.pow_lt_pow_succ (by decide)) (.inr le_rfl)]
    ring
  · exact unitsOfMag_shift_add f hlt hge

/-- The value of the pattern is the rounded significand, shifted back. -/
theorem unitsOfMag_roundedPattern (f : Fmt) (k n : Nat) :
    unitsOfMag f (roundedPattern f k n) * 2 ^ k = roundQuot n (roundShift f k n) * 2 ^ roundShift f k n := by
  have hk := le_roundShift f k n
  obtain ⟨hle, hge⟩ := roundQuot_significand f k n
  rw [roundedPattern, unitsOfMag_shift_add_of_le f hle (hge.imp_left (by omega)), Nat.mul_assoc, ← Nat.pow_add,
    Nat.sub_add_cancel hk]

/-! ### The nearest magnitude -/

/-- Every magnitude of the format is a multiple of the step the rounding took, or below the binade of the exact one. -/
theorem unitsOfMag_dvd_or_lt (f : Fmt) (k n m : Nat) :
    (∃ j, unitsOfMag f m * 2 ^ k = j * 2 ^ roundShift f k n) ∨
    (unitsOfMag f m * 2 ^ k < 2 ^ (fracBits f + roundShift f k n) ∧ 2 ^ (fracBits f + roundShift f k n) ≤ n) := by
  obtain ⟨s, q, rfl, hlt, hge⟩ := exists_shift_significand f m
  rw [unitsOfMag_shift_add f hlt hge, Nat.mul_assoc, ← Nat.pow_add]
  rcases Nat.lt_or_ge (s + k) (roundShift f k n) with h | h
  · refine .inr ⟨?_, two_pow_le_of_lt_roundShift (by omega)⟩
    calc q * 2 ^ (s + k) < 2 ^ (fracBits f + 1) * 2 ^ (s + k) := by gcongr
      _ = 2 ^ (fracBits f + 1 + (s + k)) := (Nat.pow_add ..).symm
      _ ≤ 2 ^ (fracBits f + roundShift f k n) := Nat.pow_le_pow_right (by decide) (by omega)
  · refine .inl ⟨q * 2 ^ (s + k - roundShift f k n), ?_⟩
    rw [Nat.mul_assoc, ← Nat.pow_add, Nat.sub_add_cancel h]

/-- The magnitude `m` is nearest to `a / d` units, and even where another is as near. -/
def nearestMag (f : Fmt) (a d m : Nat) : Prop :=
  ∀ m' : Nat, (((unitsOfMag f m * d : Nat) : Int) - a).natAbs ≤ (((unitsOfMag f m' * d : Nat) : Int) - a).natAbs ∧
    ((((unitsOfMag f m * d : Nat) : Int) - a).natAbs = (((unitsOfMag f m' * d : Nat) : Int) - a).natAbs →
      unitsOfMag f m' ≠ unitsOfMag f m → m % 2 = 0)

theorem roundedPattern_even {f : Fmt} {k n : Nat} (h : roundQuot n (roundShift f k n) % 2 = 0) :
    roundedPattern f k n % 2 = 0 := by
  have hpow : 2 ^ fracBits f % 2 = 0 := by cases f <;> decide
  rw [roundedPattern, Nat.add_mod, Nat.mul_mod, hpow, h]
  rfl

/-- A finite rounded magnitude is the nearest: among the multiples of its step by `roundQuot_nearest`, and any other is
further off than the start of the binade, which is a multiple. -/
theorem roundMag_nearest {f : Fmt} {k n : Nat} (hfin : roundMag f k n < infMag f) :
    nearestMag f n (2 ^ k) (roundMag f k n) := by
  intro m
  rw [roundMag_eq_of_lt hfin]
  have hz := unitsOfMag_roundedPattern f k n
  rcases unitsOfMag_dvd_or_lt f k n m with ⟨j, hj⟩ | ⟨hlt, hle⟩
  · obtain ⟨hnear, htie⟩ := roundQuot_nearest n (roundShift f k n) j
    rw [hz, hj]
    refine ⟨hnear, fun heq hne => roundedPattern_even (htie heq fun hc => hne ?_)⟩
    exact Nat.eq_of_mul_eq_mul_right (Nat.two_pow_pos k) (by rw [hj, hz, hc])
  · obtain ⟨hnear, -⟩ := roundQuot_nearest n (roundShift f k n) (2 ^ fracBits f)
    rw [← Nat.pow_add] at hnear
    rw [hz]
    omega

/-! ### The nearest value -/

theorem unitsOf_packNum (f : Fmt) (neg : Bool) {m : Nat} (h : m < signWeight f) :
    unitsOf f (packNum f neg m) = if neg then -(unitsOfMag f m : Int) else unitsOfMag f m := by
  rw [unitsOf, isNeg_packNum f neg h, magOf_packNum f neg h]

theorem packNum_even {f : Fmt} {neg : Bool} {m : Nat} (h : m < signWeight f) (hm : m % 2 = 0) :
    (packNum f neg m).toNat % 2 = 0 := by
  have hw : signWeight f % 2 = 0 := by cases f <;> decide
  rw [packNum_toNat f neg h]
  split <;> omega

@[simp] theorem unitsOfMag_zero (f : Fmt) : unitsOfMag f 0 = 0 := by
  cases f <;> rfl

/-- How far a value is from an exact one: the magnitudes' distance with the same sign, their sum with the other. -/
theorem natAbs_unitsOf_sub (f : Fmt) (w : FVal) (neg : Bool) (a d : Nat) :
    (unitsOf f w * d - if neg then -(a : Int) else a).natAbs =
      if isNeg f w = neg then (((unitsOfMag f (magOf f w) * d : Nat) : Int) - a).natAbs
      else unitsOfMag f (magOf f w) * d + a := by
  rw [unitsOf]
  cases neg <;> cases isNeg f w <;> simp <;> omega

/-- With the sign of the exact value, the nearest magnitude is the nearest value: one of the other sign is no nearer
than zero. -/
theorem roundedFrom_packNum {f : Fmt} (neg : Bool) {a d m : Nat} (hd : 0 < d) (hm : m < signWeight f)
    (hnear : nearestMag f a d m) : roundedFrom f (if neg then -(a : Int) else a) d (packNum f neg m) := by
  intro w _
  have hz := natAbs_unitsOf_sub f (packNum f neg m) neg a d
  rw [isNeg_packNum f neg hm, magOf_packNum f neg hm, if_pos rfl] at hz
  rw [hz, natAbs_unitsOf_sub, unitsOf_packNum f neg hm]
  by_cases hsign : isNeg f w = neg
  · obtain ⟨hle, htie⟩ := hnear (magOf f w)
    rw [if_pos hsign]
    refine ⟨hle, fun heq hne => packNum_even hm (htie heq fun hc => hne ?_)⟩
    rw [unitsOf, hsign, hc]
  · obtain ⟨hle, htie⟩ := hnear 0
    rw [unitsOfMag_zero, Nat.zero_mul] at hle htie
    rw [if_neg hsign]
    refine ⟨by omega, fun heq hne => packNum_even hm (htie (by omega) fun hc => hne ?_)⟩
    have hw : unitsOfMag f (magOf f w) = 0 := (Nat.mul_eq_zero.mp (by omega)).resolve_right hd.ne'
    rw [unitsOf, hw, ← hc]
    simp

/-! ### Sums and products (00_scope.md section 4) -/

/-- A packed magnitude that is finite is below infinity. -/
theorem lt_infMag_of_isFiniteNum {f : Fmt} {neg : Bool} {m : Nat} (hm : m < signWeight f)
    (h : isFiniteNum f (packNum f neg m) = true) : m < infMag f := by
  rwa [isFiniteNum, magOf_packNum f neg hm, decide_eq_true_eq] at h

theorem roundMag_lt_signWeight (f : Fmt) (k n : Nat) : roundMag f k n < signWeight f :=
  (roundMag_le f k n).trans_lt (infMag_lt_signWeight f)

/-- A rounded magnitude with a sign, where it is finite, is the nearest value. -/
theorem roundedFrom_roundMag {f : Fmt} {neg : Bool} {k n : Nat}
    (h : isFiniteNum f (packNum f neg (roundMag f k n)) = true) :
    roundedFrom f (if neg then -(n : Int) else n) (2 ^ k) (packNum f neg (roundMag f k n)) :=
  roundedFrom_packNum neg (Nat.two_pow_pos k) (roundMag_lt_signWeight f k n)
    (roundMag_nearest (lt_infMag_of_isFiniteNum (roundMag_lt_signWeight f k n) h))

@[simp] theorem roundMag_zero (f : Fmt) (k : Nat) : roundMag f k 0 = 0 := by
  simp [roundMag, roundShift, roundQuot]

/-- The rounded sum is one rounding of the exact sum, whichever sign an exact zero has. -/
theorem addFinite_eq (f : Fmt) (x y : FVal) : ∃ neg : Bool,
    addFinite f x y = packNum f neg (roundMag f 0 (unitsOf f x + unitsOf f y).natAbs) ∧
    unitsOf f x + unitsOf f y =
      if neg then -((unitsOf f x + unitsOf f y).natAbs : Int) else (unitsOf f x + unitsOf f y).natAbs := by
  simp only [addFinite]
  generalize unitsOf f x + unitsOf f y = z
  split
  next h =>
    subst h
    exact ⟨_, by rw [Int.natAbs_zero, roundMag_zero], by simp⟩
  next h =>
    refine ⟨_, rfl, ?_⟩
    simp only [decide_eq_true_eq]
    split <;> omega

theorem roundedFrom_addFinite {f : Fmt} {x y : FVal} (h : isFiniteNum f (addFinite f x y) = true) :
    roundedFrom f (unitsOf f x + unitsOf f y) 1 (addFinite f x y) := by
  obtain ⟨neg, heq, hsum⟩ := addFinite_eq f x y
  rw [heq] at h ⊢
  have hround := roundedFrom_roundMag h
  rwa [← hsum] at hround

/-- The sum of finite values is `addFinite`. -/
theorem addNum_of_finite {f : Fmt} (op : FloatOp) {x y : FVal} (hx : isFiniteNum f x = true)
    (hy : isFiniteNum f y = true) : addNum f op x y = addFinite f x y := by
  simp only [isFiniteNum, decide_eq_true_eq] at hx hy
  simp [addNum, isNaNNum, isInfNum, hx.ne, hy.ne, hx.le, hy.le]

@[simp] theorem magOf_negNum (f : Fmt) (x : FVal) : magOf f (negNum f x) = magOf f x :=
  magOf_packNum f _ (magOf_lt f x)

theorem isFiniteNum_negNum (f : Fmt) (x : FVal) : isFiniteNum f (negNum f x) = isFiniteNum f x := by
  rw [isFiniteNum, magOf_negNum, isFiniteNum]

theorem unitsOf_negNum (f : Fmt) (x : FVal) : unitsOf f (negNum f x) = -unitsOf f x := by
  rw [negNum, unitsOf_packNum f _ (magOf_lt f x), unitsOf]
  cases isNeg f x <;> simp

/-- Settles O38: a difference is the sum with the second operand reversed, and a sum is rounded once. -/
theorem sumsAreRoundedToNearestEven : Obligations.SumsAreRoundedToNearestEven := by
  intro f x y hx hy
  rw [flAdd, flSub, addNum_of_finite .add hx hy, addNum_of_finite .sub hx (by rwa [isFiniteNum_negNum])]
  refine ⟨roundedFrom_addFinite, fun h => ?_⟩
  rw [Int.sub_eq_add_neg, ← unitsOf_negNum]
  exact roundedFrom_addFinite h

/-- The product of finite values is one rounding of the exact product of the magnitudes. -/
theorem flMul_of_finite {f : Fmt} {x y : FVal} (hx : isFiniteNum f x = true) (hy : isFiniteNum f y = true) :
    flMul f x y = packNum f (isNeg f x != isNeg f y)
      (roundMag f (scale f) (unitsOfMag f (magOf f x) * unitsOfMag f (magOf f y))) := by
  simp only [isFiniteNum, decide_eq_true_eq] at hx hy
  simp [flMul, isNaNNum, isInfNum, hx.ne, hy.ne, hx.le, hy.le]

theorem unitsOf_mul (f : Fmt) (x y : FVal) : unitsOf f x * unitsOf f y =
    if isNeg f x != isNeg f y then -((unitsOfMag f (magOf f x) * unitsOfMag f (magOf f y) : Nat) : Int)
    else (unitsOfMag f (magOf f x) * unitsOfMag f (magOf f y) : Nat) := by
  rw [unitsOf, unitsOf]
  cases isNeg f x <;> cases isNeg f y <;> simp

/-- Settles O39: the exact product, counted in units of the unit, is rounded once. -/
theorem productsAreRoundedToNearestEven : Obligations.ProductsAreRoundedToNearestEven := by
  intro f x y hx hy h
  rw [flMul_of_finite hx hy] at h ⊢
  rw [unitsOf_mul]
  exact roundedFrom_roundMag h

end Sys2Proof.Machine
end

section
/-! PROOFS. The conversion (42_conversion.md): its formulas, the order and the range of CONV_TEMP, and the calibration
constants. -/

namespace Sys2Proof.Machine

/-! ### The formulas (42_conversion.md section 2) -/

/-- Settles O34: the formula is the definition's, and its corner cases are evaluated. -/
theorem convTempFollowsItsFormula : Obligations.ConvTempFollowsItsFormula :=
  ⟨fun r s => exec_convTemp r s, by decide +kernel⟩

/-- Settles O37: the steps are the definition's under either grouping, and the worked example is evaluated. -/
theorem convHumFollowsItsFormula : Obligations.ConvHumFollowsItsFormula := by
  refine ⟨fun t h s => ?_, by decide +kernel⟩
  rw [exec_convHum, execConvHum, convHum]
  cases s.cfg.sqOrder <;> rfl

/-! ### Rounding keeps the order -/

theorem roundedPattern_mono (f : Fmt) (k : Nat) : Monotone (roundedPattern f k) := by
  intro n n' h
  have hs : roundShift f k n ≤ roundShift f k n' := by
    unfold roundShift
    have hlog : n.log2 ≤ n'.log2 := by
      simp only [Nat.log2_eq_log_two]
      exact Nat.log_mono_right h
    omega
  rcases Nat.eq_or_lt_of_le hs with heq | hlt
  · rw [roundedPattern, roundedPattern, heq]
    exact Nat.add_le_add_left (roundQuot_mono _ h) _
  · have hk := le_roundShift f k n
    obtain ⟨hq, -⟩ := roundQuot_significand f k n
    obtain ⟨-, hq'⟩ := roundQuot_significand f k n'
    have hhidden : 2 ^ fracBits f ≤ roundQuot n' (roundShift f k n') := hq'.resolve_left (by omega)
    calc roundedPattern f k n
        ≤ (roundShift f k n - k) * 2 ^ fracBits f + 2 ^ (fracBits f + 1) := Nat.add_le_add_left hq _
      _ = (roundShift f k n - k + 1) * 2 ^ fracBits f + 2 ^ fracBits f := by ring
      _ ≤ (roundShift f k n' - k) * 2 ^ fracBits f + roundQuot n' (roundShift f k n') := by gcongr; omega

theorem roundMag_mono (f : Fmt) (k : Nat) : Monotone (roundMag f k) :=
  fun _ _ h => min_le_min_left _ (roundedPattern_mono f k h)

/-- The value of an exact sum of `z` units, once rounded. -/
def roundedUnits (f : Fmt) (z : Int) : Int :=
  if z < 0 then -(unitsOfMag f (roundMag f 0 z.natAbs) : Int) else unitsOfMag f (roundMag f 0 z.natAbs)

theorem unitsOf_addFinite (f : Fmt) (x y : FVal) :
    unitsOf f (addFinite f x y) = roundedUnits f (unitsOf f x + unitsOf f y) := by
  obtain ⟨neg, heq, hsum⟩ := addFinite_eq f x y
  rw [heq, unitsOf_packNum f neg (roundMag_lt_signWeight f 0 _), roundedUnits]
  generalize unitsOf f x + unitsOf f y = z at *
  cases neg with
  | false =>
    rw [if_neg Bool.false_ne_true] at hsum ⊢
    rw [if_neg (by omega)]
  | true =>
    rw [if_pos rfl] at hsum ⊢
    rcases eq_or_ne z 0 with rfl | hz
    · simp
    · rw [if_pos (by omega)]

theorem roundedUnits_mono (f : Fmt) : Monotone (roundedUnits f) := by
  intro z z' h
  have hmono {n n' : Nat} (h : n ≤ n') : unitsOfMag f (roundMag f 0 n) ≤ unitsOfMag f (roundMag f 0 n') :=
    (unitsOfMag_strictMono f).monotone (roundMag_mono f 0 h)
  unfold roundedUnits
  split <;> split
  next h1 h2 =>
    have hmag := hmono (show z'.natAbs ≤ z.natAbs by omega)
    omega
  · omega
  · omega
  next h1 h2 =>
    have hmag := hmono (show z.natAbs ≤ z'.natAbs by omega)
    omega

/-! ### CONV_TEMP (42_conversion.md sections 2 and 3) -/

/-- The magnitude of the rounded product of a count and 0.01. -/
def scaledCount (f : Fmt) (r : Count) : Nat :=
  roundMag f (scale f) (r.toNat * 2 ^ scale f * unitsOfMag f (magOf f (kT1 f)))

theorem scaledCount_mono {f : Fmt} {r r' : Count} (h : r.toNat ≤ r'.toNat) : scaledCount f r ≤ scaledCount f r' :=
  roundMag_mono f _ (by gcongr)

theorem scaledCount_lt (f : Fmt) (r : Count) : scaledCount f r < infMag f := by
  have hmax : scaledCount f 65535#16 < infMag f := by cases f <;> decide +kernel
  exact (scaledCount_mono (Nat.le_of_lt_succ r.isLt)).trans_lt hmax

theorem isNeg_toF (f : Fmt) (n : Nat) : isNeg f (toF f n) = false :=
  isNeg_packNum f false (roundMag_lt_signWeight f 0 _)

theorem unitsOf_of_not_isNeg {f : Fmt} {x : FVal} (h : isNeg f x = false) : unitsOf f x = unitsOfMag f (magOf f x) := by
  simp [unitsOf, h]

/-- A count converts exactly, so the product is rounded once. -/
theorem flMul_toF_kT1 (f : Fmt) (r : Count) : flMul f (toF f r.toNat) (kT1 f) = packNum f false (scaledCount f r) := by
  obtain ⟨hfin, hunits⟩ := countsConvertExactly.1 f r.toNat (Nat.le_of_lt_succ r.isLt)
  rw [unitsOf_of_not_isNeg (isNeg_toF f _)] at hunits
  have hmag : unitsOfMag f (magOf f (toF f r.toNat)) = r.toNat * 2 ^ scale f := by exact_mod_cast hunits
  have hk : isFiniteNum f (kT1 f) = true ∧ isNeg f (kT1 f) = false := by cases f <;> decide
  rw [flMul_of_finite hfin hk.1, isNeg_toF, hk.2, hmag]
  rfl

theorem unitsOf_convTemp (f : Fmt) (r : Count) :
    unitsOf f (convTemp f r) = roundedUnits f (unitsOfMag f (scaledCount f r) - unitsOf f (kT0 f)) := by
  have hk : isFiniteNum f (kT0 f) = true := by cases f <;> decide
  have hprod := isFiniteNum_packNum f false (scaledCount_lt f r)
  rw [convTemp, flMul_toF_kT1, flSub, addNum_of_finite .sub hprod (by rwa [isFiniteNum_negNum]), unitsOf_addFinite,
    unitsOf_negNum, unitsOf_packNum_false f ((scaledCount_lt f r).trans (infMag_lt_signWeight f)), Int.sub_eq_add_neg]

/-- Settles O35: both roundings keep the order, and so does the difference between them. -/
theorem convTempIsNonDecreasing : Obligations.ConvTempIsNonDecreasing := by
  intro f r r' h
  rw [unitsOf_convTemp, unitsOf_convTemp]
  have hmag := (unitsOfMag_strictMono f).monotone (scaledCount_mono (f := f) h)
  exact roundedUnits_mono f (by omega)

theorem natAbs_unitsOf (f : Fmt) (x : FVal) : (unitsOf f x).natAbs = unitsOfMag f (magOf f x) := by
  rw [unitsOf]
  split <;> simp

/-- The values grow with their patterns up to infinity's. -/
theorem isFiniteNum_iff_units (f : Fmt) (x : FVal) :
    isFiniteNum f x = true ↔ (unitsOf f x).natAbs < unitsOfMag f (infMag f) := by
  rw [natAbs_unitsOf, (unitsOfMag_strictMono f).lt_iff_lt, isFiniteNum, decide_eq_true_eq]

theorem isFiniteNum_of_between {f : Fmt} {a b x : FVal} (ha : isFiniteNum f a = true) (hb : isFiniteNum f b = true)
    (hax : unitsOf f a ≤ unitsOf f x) (hxb : unitsOf f x ≤ unitsOf f b) : isFiniteNum f x = true := by
  rw [isFiniteNum_iff_units] at ha hb ⊢
  omega

/-- Settles O36: CONV_TEMP is non-decreasing, and the bounds are its values at the least and the greatest count. -/
theorem convTempStaysInRange : Obligations.ConvTempStaysInRange := by
  intro r
  obtain ⟨-, hmin, -, -, -, hmax⟩ := convTempFollowsItsFormula
  have hlo := convTempIsNonDecreasing .binary64 0#16 r (Nat.zero_le _)
  have hhi := convTempIsNonDecreasing .binary64 r 65535#16 (Nat.le_of_lt_succ r.isLt)
  rw [hmin] at hlo
  rw [hmax] at hhi
  exact ⟨isFiniteNum_of_between (by decide) (by decide) hlo hhi, hlo, hhi⟩

/-! ### The calibration constants (42_conversion.md section 1) -/

/-- Every other value is at most the one below, or at least the one above. -/
theorem unitsOf_neighbours (f : Fmt) (w : FVal) (m : Nat) :
    unitsOf f w ≤ unitsOfMag f (m - 1) ∨ unitsOf f w = unitsOfMag f m ∨ (unitsOfMag f (m + 1) : Int) ≤ unitsOf f w := by
  have hmono := (unitsOfMag_strictMono f).monotone
  cases hneg : isNeg f w with
  | true =>
    rw [unitsOf, hneg, if_pos rfl]
    omega
  | false =>
    rw [unitsOf_of_not_isNeg hneg]
    rcases lt_trichotomy (magOf f w) m with h | h | h
    · exact .inl (by exact_mod_cast hmono (Nat.le_sub_one_of_lt h))
    · exact .inr (.inl (by rw [h]))
    · exact .inr (.inr (by exact_mod_cast hmono (Nat.succ_le_of_lt h)))

/-- A positive value is nearest to a decimal that lies between its midpoints with the values next to it. -/
theorem nearestTo_of_midpoints {f : Fmt} {p q : Nat} {k : FVal}
    (h : isFiniteNum f k = true ∧ isNeg f k = false ∧
      (unitsOfMag f (magOf f k - 1) + unitsOfMag f (magOf f k)) * q ≤ 2 * (p * 2 ^ scale f) ∧
      2 * (p * 2 ^ scale f) ≤ (unitsOfMag f (magOf f k) + unitsOfMag f (magOf f k + 1)) * q) :
    nearestTo f p q k := by
  obtain ⟨hfin, hpos, hlo, hhi⟩ := h
  refine ⟨hfin, fun w _ => ?_⟩
  rw [unitsOf_of_not_isNeg hpos]
  zify at hlo hhi
  rcases unitsOf_neighbours f w (magOf f k) with hw | hw | hw
  · have hwq := mul_le_mul_of_nonneg_right hw (Int.natCast_nonneg q)
    have hkq : (unitsOfMag f (magOf f k - 1) : Int) * q ≤ unitsOfMag f (magOf f k) * q := by
      gcongr
      exact (unitsOfMag_strictMono f).monotone (Nat.sub_le ..)
    rw [add_mul] at hlo
    omega
  · rw [hw]
  · have hwq := mul_le_mul_of_nonneg_right hw (Int.natCast_nonneg q)
    have hkq : (unitsOfMag f (magOf f k) : Int) * q ≤ unitsOfMag f (magOf f k + 1) * q := by
      gcongr
      exact (unitsOfMag_strictMono f).monotone (Nat.le_succ _)
    rw [add_mul] at hhi
    omega

/-- Settles O41: each constant, in each format, against the midpoints with its neighbours. -/
theorem constantsAreTheNearestValues : Obligations.ConstantsAreTheNearestValues := by
  intro f
  cases f <;> refine ⟨?_, ?_, ?_, ?_, ?_, ?_, ?_⟩ <;> exact nearestTo_of_midpoints (by decide +kernel)

end Sys2Proof.Machine
end
